-- ==== Sys2Proof/Word.lean ====
section
/-! DEFINITION. The word types of the RMG protocol engine (00_scope.md R9, R10: every value is unsigned). -/

namespace Sys2Proof

/-- A byte is 8 bits (R10). -/
abbrev Byte := BitVec 8

/-- The 32-bit words of the host side: display request and button word (R67, R69). -/
abbrev Word := BitVec 32

end Sys2Proof
end

