-- ==== Sys2Proof/Config.lean ====
section
/-! DEFINITION. The configuration parameters of one block instance (00_scope.md R7, 10_state.md R27). -/

namespace Sys2Proof

/-- The seven parameters of R7. The source gives no numbers for the six opcodes (91_not_in_source.md N1), so every
claim is about every value of this record. -/
structure Config where
  /-- `P_OP_BUTTON_EVENT` -/
  opButtonEvent : Byte
  /-- `P_OP_RESET` -/
  opReset : Byte
  /-- `P_OP_ACK` -/
  opAck : Byte
  /-- `P_OP_LED_SET` -/
  opLedSet : Byte
  /-- `P_OP_ENABLE_BUTTONS` -/
  opEnableButtons : Byte
  /-- `P_OP_SELECT_LED_MODE` -/
  opSelectLedMode : Byte
  /-- `P_EVENT_FALLTHROUGH` -/
  eventFallthrough : Bool
  deriving DecidableEq, Repr

end Sys2Proof
end

