-- ==== Sys2Proof/Machine/Parameters.lean ====
section
/-! DEFINITION. Which configurations are legal (00_scope.md R8), and the configuration of the instance that
State.reset describes. -/

namespace Sys2Proof

/-- R8: the three inbound opcodes are pairwise distinct. The outbound values have no constraint. -/
def Config.legal (c : Config) : Bool :=
  c.opButtonEvent != c.opReset && c.opButtonEvent != c.opAck && c.opReset != c.opAck

namespace Machine

/-- DESIGN CHOICE (log 1, unsafe): the spec leaves the six opcode values OPEN (D1), and a single reset state must carry
some. They are arbitrary distinct values taken from no source. `P_EVENT_FALLTHROUGH` is the spec's default, 0 (R7). -/
def resetConfig : Config where
  opButtonEvent := 0x01
  opReset := 0x02
  opAck := 0x03
  opLedSet := 0x04
  opEnableButtons := 0x05
  opSelectLedMode := 0x06
  eventFallthrough := false

end Machine

end Sys2Proof
end

