-- ==== Sys2Proof/Syntax.lean ====
section
/-! DEFINITION. What crosses the block's interfaces (30_encoding.md), and the one inductive of instructions: a
constructor for each row of spec/opcode_table.json. -/

namespace Sys2Proof

/-- A ButtonSnapshot: the two stored raw button bytes (R13, R21). -/
structure ButtonSnapshot where
  b0 : Byte
  b1 : Byte
  deriving DecidableEq, Repr

/-- An LedFrame: six bytes, in index order (R22, R64). -/
structure LedFrame where
  opcode : Byte
  mask : Byte
  seg0 : Byte
  seg1 : Byte
  seg2 : Byte
  seg3 : Byte
  deriving DecidableEq, Repr

/-- The three statuses a host command can complete with (R72); there is no fourth (93 I17). -/
inductive Status where
  | success
  | invalidArgument
  | busy
  deriving DecidableEq, Repr

/-- The response of one host command (R71). `result` is absent exactly when `result_valid = 0`: the spec then gives it
no value. -/
structure Response where
  status : Status
  result : Option Word
  deriving DecidableEq, Repr

/-- One transaction as the environment presents it (R3): an inbound packet of exactly three bytes (R60), or a host
command (R70). -/
inductive Transaction where
  | packet (op data1 data2 : Byte)
  | command (code : BitVec 2) (arg : Word) (slotPresent : Bool)
  deriving DecidableEq, Repr

/-- A unit in one of the formats of the opcode table (R76): one that comes in, or the byte sequence of one outbound
unit (R63, R64). -/
inductive WireUnit where
  | inbound (t : Transaction)
  | outbound (bytes : List Byte)
  deriving DecidableEq, Repr

/-- The rows of spec/opcode_table.json, in its order. Ignored operands are kept, so that no bit of a word is lost. -/
inductive Instr where
  /-- BUTTON_EVENT, `P_EVENT_FALLTHROUGH = 0` (R101). -/
  | buttonEvent (data1 data2 : Byte)
  /-- BUTTON_EVENT_FALLTHROUGH, `P_EVENT_FALLTHROUGH = 1` (R102). -/
  | buttonEventFallthrough (data1 data2 : Byte)
  /-- RESET (R103). -/
  | reset (data1 data2 : Byte)
  /-- ACK (R104). -/
  | ack (data1 data2 : Byte)
  /-- OTHER: any other packet opcode (R105). -/
  | other (op data1 data2 : Byte)
  /-- INIT (R160). -/
  | init (arg : Word) (slotPresent : Bool)
  /-- GET_BUTTONS (R161). -/
  | getButtons (arg : Word) (slotPresent : Bool)
  /-- SET_LED (R162). -/
  | setLed (arg : Word) (slotPresent : Bool)
  /-- RESERVED (R163). -/
  | reserved (arg : Word) (slotPresent : Bool)
  /-- OUT_INIT_SEQ (R63), an output unit. -/
  | outInitSeq
  /-- OUT_LED_FRAME (R64), an output unit. -/
  | outLedFrame (seg0 seg1 seg2 seg3 : Byte)
  deriving DecidableEq, Repr

end Sys2Proof
end

