-- ==== Sys2Proof/Machine/State.lean ====
section
/-! DEFINITION. The state of one block instance (10_state.md), its reset (70_reset_and_hazards.md R240, R241), and the
reasons a step can stop. -/

namespace Sys2Proof.Machine

/-- Faults. There are none: "The block has no traps" and "no condition is fatal to the process" (60_exceptions.md R200,
R208). Nothing raises one; an error is the status of a completed host command. -/
inductive Fault where
  deriving DecidableEq, Repr

/-- Why a step has no meaning. -/
inductive Refusal where
  /-- An instruction without a meaning; raised only by `exec`'s refused arms, of which there are none. Safe. -/
  | notModelled (mnemonic : String)
  /-- The inbound opcodes are not pairwise distinct: "A model refuses any other configuration" (00_scope.md R8, D2).
  Raised by `step`, for every transaction of such an instance. Safe: no claim is made about it. -/
  | illegalConfiguration
  deriving DecidableEq, Repr

/-- Everything the spec gives the machine, and the environment's transactions. -/
structure State where
  /-- `lastButtons` (R21). -/
  lastButtons : ButtonSnapshot
  /-- `lastLedFrame` (R22). -/
  lastLedFrame : LedFrame
  /-- `commandPending` (R23). -/
  commandPending : Bool
  /-- The outbound log, oldest event first (R26). -/
  outLog : List (List Byte)
  /-- The response of every host command so far, oldest first (R71, R253; log 5). -/
  responses : List Response
  /-- The instance's configuration (R27; log 1). -/
  config : Config
  /-- The MODEL's own: the transactions the environment has presented and the block has not yet taken, in the order the
  environment serialized them (R45, R253; log 2). -/
  inputs : List Transaction
  deriving DecidableEq, Repr

/-- `lastButtons` at reset: all-zero (R21). -/
def resetButtons : ButtonSnapshot := ⟨0x00, 0x00⟩

/-- `lastLedFrame` at reset: six 0x00 bytes (R22). -/
def resetFrame : LedFrame := ⟨0x00, 0x00, 0x00, 0x00, 0x00, 0x00⟩

/-- The block reset of the instance with configuration `c` (R240, R241). -/
def State.resetWith (c : Config) : State where
  lastButtons := resetButtons
  lastLedFrame := resetFrame
  commandPending := false
  outLog := []
  responses := []
  config := c
  inputs := []

/-- The machine right after reset (R240, R241), for the configuration of log 1. -/
def State.reset : State := State.resetWith resetConfig

end Sys2Proof.Machine
end

