-- ==== Sys2Proof/Machine/Flags.lean ====
section
/-! DEFINITION. The one flag, `commandPending` (10_state.md R23): its two writes. -/

namespace Sys2Proof.Machine

/-- `S.commandPending <- 1`; only TRY_SET_LED does it (R23, R150). -/
def setPending (s : State) : State := { s with commandPending := true }

/-- `S.commandPending <- 0` (R23); a clear of a clear flag leaves it 0. -/
def clearPending (s : State) : State := { s with commandPending := false }

end Sys2Proof.Machine
end

