-- ==== Sys2Proof/Machine/Operands.lean ====
section
/-! DEFINITION. The block's combinational functions: the fields of a display request, SEG_LUT, ENCODE
(42_led_encoder.md), REMAP (41_button_remapper.md), and the byte sequences of the outbound units (30_encoding.md). -/

namespace Sys2Proof.Machine

/-- The `SEG_LUT` ROM (R28), the source's sixteen literals in digit order (R130). -/
def segTable : Vector Byte 16 :=
  #v[0xE7, 0x06, 0xCB, 0x8F, 0x2E, 0xAD, 0xED, 0x86, 0xEF, 0xAE, 0xEE, 0x6D, 0xE1, 0x4F, 0xE9, 0xE8]

/-- `SEG_LUT[digit]` (R130). -/
def segLut (digit : BitVec 4) : Byte := segTable[digit.toNat]'digit.isLt

/-- `digit_i = req[4i+3 : 4i]` (R131). -/
def digitAt (req : Word) (i : Fin 4) : BitVec 4 := req.extractLsb' (4 * i.val) 4

/-- `enable_i = req[16 + i]` (R131). -/
def enableAt (req : Word) (i : Fin 4) : Bool := req.getLsbD (16 + i.val)

/-- `decimal_i = req[24 + i]` (R131). -/
def decimalAt (req : Word) (i : Fin 4) : Bool := req.getLsbD (24 + i.val)

/-- The segment byte of one position, from its digit, enable bit and decimal bit (R132). -/
def segmentByte (digit : BitVec 4) (enable decimal : Bool) : Byte :=
  if enable then segLut digit + (if decimal then 16 else 0) else 0x00

/-- `seg_i` (R132). -/
def segmentAt (req : Word) (i : Fin 4) : Byte :=
  segmentByte (digitAt req i) (enableAt req i) (decimalAt req i)

/-- The digit-select mask, always "all four active" (R64). -/
def digitSelectMask : Byte := 0x0F

/-- `ENCODE(req)` (R133). -/
def ledEncode (c : Config) (req : Word) : LedFrame where
  opcode := c.opLedSet
  mask := digitSelectMask
  seg0 := segmentAt req 0
  seg1 := segmentAt req 1
  seg2 := segmentAt req 2
  seg3 := segmentAt req 3

/-- R65: a segment byte is 0x00, a `SEG_LUT` entry, or an entry plus 16. -/
def isSegmentByte (b : Byte) : Bool :=
  b == 0x00 || segTable.toList.any (fun e => b == e || b == e + 16)

/-- One bit of a byte as a one-bit field. -/
def bitOf (b : Byte) (i : Nat) : BitVec 1 := b.extractLsb' i 1

/-- `REMAP(b0, b1)` (R120), written as the concatenation of `w[31:8]`, `w[7]`, `w[6]`, `w[5]`, `w[4]` and `w[3:0]`. -/
def remap (b0 b1 : Byte) : Word :=
  (0 : BitVec 24) ++ bitOf b1 3 ++ bitOf b1 1 ++ bitOf b1 2 ++ bitOf b1 0 ++ b0.extractLsb' 0 4

/-- `INIT_SEQ`, two bytes (R63). -/
def initSeq (c : Config) : List Byte := [c.opEnableButtons, c.opSelectLedMode]

/-- The six bytes of a frame, index 0 first (R42, R64). -/
def frameBytes (f : LedFrame) : List Byte := [f.opcode, f.mask, f.seg0, f.seg1, f.seg2, f.seg3]

/-- The LED frame that carries these four segment bytes (R64). -/
def ledFrame (c : Config) (seg0 seg1 seg2 seg3 : Byte) : LedFrame :=
  ⟨c.opLedSet, digitSelectMask, seg0, seg1, seg2, seg3⟩

/-- The status encoding (R72). -/
def statusCode : Status → BitVec 2
  | .success => 0b00
  | .invalidArgument => 0b01
  | .busy => 0b10

/-- `result_valid` of a response (R71). -/
def resultValid (r : Response) : Bool := r.result.isSome

end Sys2Proof.Machine
end

