-- ==== Sys2Proof/Machine/Ops.lean ====
section
/-! DEFINITION. The state and effect primitives of 00_scope.md R11, and the Reset action shared by two packet kinds
(40_packet_decoder.md R103). -/

namespace Sys2Proof.Machine

/-- What a transaction answers. -/
abbrev Result := Host.Outcome State Fault Refusal

/-- `Transmit(bytes)`: one transmit event at the end of the outbound log (R11, R26). It always completes (R66; log 9). -/
def transmit (bytes : List Byte) (s : State) : State := { s with outLog := s.outLog ++ [bytes] }

/-- The response of a host command, at the end of the response log (R71). -/
def respond (r : Response) (s : State) : State := { s with responses := s.responses ++ [r] }

/-- `complete(status)` and `complete(status, result)` (R11, R71). -/
def complete (status : Status) (result : Option Word) (s : State) : Result :=
  .next (respond ⟨status, result⟩ s)

/-- `raise <Status>()`, the one error exit: the transaction ends with an error status, without a result and without any
write or transmit event (R11, R200, R208). There is nothing to return from (R209). -/
def raiseStatus (status : Status) (s : State) : Result := complete status none s

/-- `S.lastButtons.b0 <- data1; S.lastButtons.b1 <- data2` (R101, D5). -/
def storeButtons (data1 data2 : Byte) (s : State) : State := { s with lastButtons := ⟨data1, data2⟩ }

/-- `S.lastLedFrame <- frame` (R150). -/
def storeFrame (frame : LedFrame) (s : State) : State := { s with lastLedFrame := frame }

/-- `RESET_ACTION()` (R103). -/
def resetAction (s : State) : State :=
  clearPending
    (transmit (frameBytes s.lastLedFrame) (transmit (frameBytes s.lastLedFrame) (transmit (initSeq s.config) s)))

end Sys2Proof.Machine
end

