-- ==== Sys2Proof/Machine/AckGate.lean ====
section
/-! DEFINITION. Flow control: the guarded action TRY_SET_LED (43_ack_gate.md R150). -/

namespace Sys2Proof.Machine

/-- `TRY_SET_LED(frame)` (R150): BUSY without any effect while a command is pending; else the flag is set, the frame is
stored and sent twice, and the command completes at once. -/
def trySetLed (frame : LedFrame) (s : State) : Result :=
  if s.commandPending then raiseStatus .busy s
  else complete .success none
    (transmit (frameBytes frame) (transmit (frameBytes frame) (storeFrame frame (setPending s))))

end Sys2Proof.Machine
end

