-- ==== Sys2Proof/Machine/Command.lean ====
section
/-! DEFINITION. The host commands (44_command_facade.md). -/

namespace Sys2Proof.Machine

/-- INIT (R160); `arg` and `slot_present` are ignored. -/
def execInit (_arg : Word) (_slotPresent : Bool) (s : State) : Result :=
  complete .success none (clearPending (transmit (initSeq s.config) s))

/-- GET_BUTTONS (R161); `arg` is ignored. -/
def execGetButtons (_arg : Word) (slotPresent : Bool) (s : State) : Result :=
  if slotPresent then complete .success (some (remap s.lastButtons.b0 s.lastButtons.b1)) s
  else raiseStatus .invalidArgument s

/-- SET_LED (R162); `slot_present` is ignored, and the status is TRY_SET_LED's. -/
def execSetLed (arg : Word) (_slotPresent : Bool) (s : State) : Result :=
  trySetLed (ledEncode s.config arg) s

/-- RESERVED (R163, D8); the operands are ignored. -/
def execReserved (_arg : Word) (_slotPresent : Bool) (s : State) : Result := raiseStatus .invalidArgument s

end Sys2Proof.Machine
end

