-- ==== Sys2Proof/Machine/Outbound.lean ====
section
/-! DEFINITION. The two output rows of the opcode table (30_encoding.md R63, R64). What the spec says of them is that
the block emits them; their meaning is that emission, one transmit event. The block never decodes them, so no step runs
one by itself (R8; log 6). -/

namespace Sys2Proof.Machine

/-- OUT_INIT_SEQ: "The block sends it as one transmit event" (R63). -/
def execOutInitSeq (s : State) : Result := .next (transmit (initSeq s.config) s)

/-- OUT_LED_FRAME: one transmit event of six bytes (R64, R66). -/
def execOutLedFrame (seg0 seg1 seg2 seg3 : Byte) (s : State) : Result :=
  .next (transmit (frameBytes (ledFrame s.config seg0 seg1 seg2 seg3)) s)

end Sys2Proof.Machine
end

