-- ==== Sys2Proof/Machine/Packet.lean ====
section
/-! DEFINITION. The handlers of inbound packets (40_packet_decoder.md). A packet has no status and no response (R106). -/

namespace Sys2Proof.Machine

/-- BUTTON_EVENT with `P_EVENT_FALLTHROUGH = 0` (R101). -/
def execButtonEvent (data1 data2 : Byte) (s : State) : Result := .next (storeButtons data1 data2 s)

/-- BUTTON_EVENT with `P_EVENT_FALLTHROUGH = 1` (R102): store, then all of the Reset action. -/
def execButtonEventFallthrough (data1 data2 : Byte) (s : State) : Result :=
  .next (resetAction (storeButtons data1 data2 s))

/-- RESET (R103); the data bytes are ignored. -/
def execReset (_data1 _data2 : Byte) (s : State) : Result := .next (resetAction s)

/-- ACK (R104); the data bytes are ignored. -/
def execAck (_data1 _data2 : Byte) (s : State) : Result := .next (clearPending s)

/-- OTHER (R105): no operation. -/
def execOther (_op _data1 _data2 : Byte) (s : State) : Result := .next s

end Sys2Proof.Machine
end

