-- ==== Sys2Proof/Machine/Dispatch.lean ====
section
/-! DEFINITION. One arm per constructor of Instr. -/

namespace Sys2Proof.Machine

def exec (i : Instr) (s : State) : Host.Outcome State Fault Refusal :=
  match i with
  | .buttonEvent data1 data2 => Sys2Proof.Machine.execButtonEvent data1 data2 s
  | .buttonEventFallthrough data1 data2 => Sys2Proof.Machine.execButtonEventFallthrough data1 data2 s
  | .reset data1 data2 => Sys2Proof.Machine.execReset data1 data2 s
  | .ack data1 data2 => Sys2Proof.Machine.execAck data1 data2 s
  | .other op data1 data2 => Sys2Proof.Machine.execOther op data1 data2 s
  | .init arg slotPresent => Sys2Proof.Machine.execInit arg slotPresent s
  | .getButtons arg slotPresent => Sys2Proof.Machine.execGetButtons arg slotPresent s
  | .setLed arg slotPresent => Sys2Proof.Machine.execSetLed arg slotPresent s
  | .reserved arg slotPresent => Sys2Proof.Machine.execReserved arg slotPresent s
  | .outInitSeq => Sys2Proof.Machine.execOutInitSeq s
  | .outLedFrame seg0 seg1 seg2 seg3 => Sys2Proof.Machine.execOutLedFrame seg0 seg1 seg2 seg3 s

end Sys2Proof.Machine
end

