-- ==== Sys2Proof/WellFormed.lean ====
section
/-! DEFINITION. Which instructions an instance with a given configuration has (30_encoding.md R61, R65; the conditions
of spec/opcode_table.json). -/

namespace Sys2Proof

/-- The conditions the opcode table puts on a row, for the configuration `c`: the two BUTTON_EVENT rows by
`P_EVENT_FALLTHROUGH` (R101, R102), OTHER by its opcode (R105), an LED frame by its segment bytes (R65). -/
def Instr.wf (c : Config) : Instr → Bool
  | .buttonEvent _ _ => !c.eventFallthrough
  | .buttonEventFallthrough _ _ => c.eventFallthrough
  | .reset _ _ => true
  | .ack _ _ => true
  | .other op _ _ => op != c.opButtonEvent && op != c.opReset && op != c.opAck
  | .init _ _ => true
  | .getButtons _ _ => true
  | .setLed _ _ => true
  | .reserved _ _ => true
  | .outInitSeq => true
  | .outLedFrame s0 s1 s2 s3 =>
    Machine.isSegmentByte s0 && Machine.isSegmentByte s1 && Machine.isSegmentByte s2 && Machine.isSegmentByte s3

end Sys2Proof
end

