-- ==== Sys2Proof/Decode.lean ====
section
/-! DEFINITION. The decoder of the two input interfaces, the reader of outbound units, and the encoder
(30_encoding.md R60 to R76; 40_packet_decoder.md R100). -/

namespace Sys2Proof

/-- Why a unit is not one of the opcode table's. -/
inductive DecodeReject where
  /-- An inbound byte sequence that is not three bytes (R60, I12). -/
  | packetLength
  /-- An outbound byte sequence of neither two nor six bytes (R66). -/
  | outboundLength
  /-- Two outbound bytes that are not INIT_SEQ (R63). -/
  | notInitSeq
  /-- Six outbound bytes whose first two are not an LED frame's (R64). -/
  | notFrameHeader
  /-- Six outbound bytes with a byte that is no segment byte (R65). -/
  | notSegmentByte
  /-- A table word of a width no row has (R76). -/
  | tableWidth
  deriving DecidableEq, Repr

/-- The packet dispatch (R61, R100): by `pkt[0]` alone. Which of the two BUTTON_EVENT rows it is, `P_EVENT_FALLTHROUGH`
says (R101, R102). -/
def decodePacket (c : Config) (op data1 data2 : Byte) : Instr :=
  if op = c.opButtonEvent then
    if c.eventFallthrough then .buttonEventFallthrough data1 data2 else .buttonEvent data1 data2
  else if op = c.opReset then .reset data1 data2
  else if op = c.opAck then .ack data1 data2
  else .other op data1 data2

/-- The host command port's `code` (R70). -/
def decodeCommand (code : BitVec 2) (arg : Word) (slotPresent : Bool) : Instr :=
  if code = 0b00 then .init arg slotPresent
  else if code = 0b01 then .getButtons arg slotPresent
  else if code = 0b10 then .setLed arg slotPresent
  else .reserved arg slotPresent

/-- The block's decoder: every transaction is one of the nine input rows (R61, R70, R73). -/
def decodeTransaction (c : Config) : Transaction → Instr
  | .packet op data1 data2 => decodePacket c op data1 data2
  | .command code arg slotPresent => decodeCommand code arg slotPresent

/-- An inbound byte sequence as a transaction: exactly three bytes, or rejected (R60). -/
def packetOfBytes : List Byte → Except DecodeReject Transaction
  | [op, data1, data2] => .ok (.packet op data1 data2)
  | _ => .error .packetLength

/-- Reads an outbound byte sequence as the output row it is an instance of; the length tells the kind (R66). The block
itself never decodes outbound bytes (R8): this reader is for whoever looks at the outbound log. -/
def decodeOutbound (c : Config) : List Byte → Except DecodeReject Instr
  | [b0, b1] => if [b0, b1] = Machine.initSeq c then .ok .outInitSeq else .error .notInitSeq
  | [b0, b1, s0, s1, s2, s3] =>
    if b0 = c.opLedSet ∧ b1 = Machine.digitSelectMask then
      if (Instr.outLedFrame s0 s1 s2 s3).wf c then .ok (.outLedFrame s0 s1 s2 s3) else .error .notSegmentByte
    else .error .notFrameHeader
  | _ => .error .outboundLength

/-- Any unit of the opcode table's formats, or a rejection by name. -/
def decode (c : Config) : WireUnit → Except DecodeReject Instr
  | .inbound t => .ok (decodeTransaction c t)
  | .outbound bytes => decodeOutbound c bytes

/-- Byte `i` of a number, byte 0 the least significant. -/
def byteOfNat (w i : Nat) : Byte := BitVec.ofNat 8 (w >>> (8 * i))

/-- The unit whose bits are `w`, by the width of its row (R76; log 7): the row's pattern read as one number, its last
character bit 0, as the table's own match and mask values number it. A 24-bit word is a packet with `pkt[0]` in bits
23:16; a 35-bit word (40 bits in whole bytes) is a command with `code` in bits 34:33, `arg` in bits 32:1 and
`slot_present` in bit 0; 16 and 48 bits are the outbound units, byte 0 the most significant. -/
def unitOfTableWord (nbits w : Nat) : Except DecodeReject WireUnit :=
  if nbits = 24 ∧ w < 2 ^ 24 then
    .ok (.inbound (.packet (byteOfNat w 2) (byteOfNat w 1) (byteOfNat w 0)))
  else if (nbits = 35 ∨ nbits = 40) ∧ w < 2 ^ 35 then
    .ok (.inbound (.command (BitVec.ofNat 2 (w >>> 33)) (BitVec.ofNat 32 (w >>> 1)) (w.testBit 0)))
  else if nbits = 16 ∧ w < 2 ^ 16 then
    .ok (.outbound [byteOfNat w 1, byteOfNat w 0])
  else if nbits = 48 ∧ w < 2 ^ 48 then
    .ok (.outbound [byteOfNat w 5, byteOfNat w 4, byteOfNat w 3, byteOfNat w 2, byteOfNat w 1, byteOfNat w 0])
  else .error .tableWidth

/-- The host's question: what the decoder of the reset instance reads from a table word. -/
def decodeTableWord (nbits w : Nat) : Option Instr :=
  match unitOfTableWord nbits w with
  | .error _ => none
  | .ok u =>
    match decode Machine.resetConfig u with
    | .error _ => none
    | .ok i => some i

/-- The encoder: the unit of an instruction, from the tables of R61, R63, R64 and R70. -/
def encode (c : Config) : Instr → WireUnit
  | .buttonEvent data1 data2 => .inbound (.packet c.opButtonEvent data1 data2)
  | .buttonEventFallthrough data1 data2 => .inbound (.packet c.opButtonEvent data1 data2)
  | .reset data1 data2 => .inbound (.packet c.opReset data1 data2)
  | .ack data1 data2 => .inbound (.packet c.opAck data1 data2)
  | .other op data1 data2 => .inbound (.packet op data1 data2)
  | .init arg slotPresent => .inbound (.command 0b00 arg slotPresent)
  | .getButtons arg slotPresent => .inbound (.command 0b01 arg slotPresent)
  | .setLed arg slotPresent => .inbound (.command 0b10 arg slotPresent)
  | .reserved arg slotPresent => .inbound (.command 0b11 arg slotPresent)
  | .outInitSeq => .outbound (Machine.initSeq c)
  | .outLedFrame s0 s1 s2 s3 => .outbound [c.opLedSet, Machine.digitSelectMask, s0, s1, s2, s3]

end Sys2Proof
end

