-- ==== Sys2Proof/Machine/Fetch.lean ====
section
/-! DEFINITION. Taking the next transaction from the environment (20_memory.md R44, R45; 70_reset_and_hazards.md R253).
The block has no program counter and fetches nothing from a memory (10_state.md R31). -/

namespace Sys2Proof.Machine

/-- The environment presents `t` as the next transaction. -/
def present (t : Transaction) (s : State) : State := { s with inputs := t :: s.inputs }

/-- The environment presents the transactions `ts`, in that serialization order, and no others. -/
def presentAll (ts : List Transaction) (s : State) : State := { s with inputs := ts }

/-- The next transaction, and the state once the block has taken it: each is handled once, then discarded (R107). -/
def takeTransaction (s : State) : Option (Transaction × State) :=
  match s.inputs with
  | [] => none
  | t :: rest => some (t, { s with inputs := rest })

/-- With no transaction presented nothing happens (R3, R31; log 3). -/
def idle (s : State) : Result := .next s

/-- The instance's decoder on the transaction taken (R100, R70). -/
def instructionOf (t : Transaction) (s : State) : Instr := decodeTransaction s.config t

/-- Whether the model gives the instance a meaning (R8). -/
def configAccepted (s : State) : Bool := s.config.legal

/-- The host's table word presented as the next transaction. An outbound unit is an output, so it cannot be presented
(R8; log 6), and a word of no row's width is no transaction: then nothing changes. -/
def presentTableWord (nbits w : Nat) (s : State) : State :=
  match unitOfTableWord nbits w with
  | .ok (.inbound t) => present t s
  | .ok (.outbound _) => s
  | .error _ => s

end Sys2Proof.Machine
end

