-- ==== Sys2Proof/Machine/Step.lean ====
section
/-! DEFINITION. One step is one whole transaction, atomically (20_memory.md R44). -/

namespace Sys2Proof.Machine

/-- One step: an illegal configuration is refused (R8); else the next transaction is taken, decoded and run. -/
def step (s : State) : Host.Outcome State Fault Refusal :=
  if configAccepted s then
    match takeTransaction s with
    | none => idle s
    | some (t, s') => exec (instructionOf t s') s'
  else .refused .illegalConfiguration

/-- `s` with the transaction of a table word presented as the next one. -/
def State.withFetchWord (s : State) (nbits w : Nat) : State := presentTableWord nbits w s

end Sys2Proof.Machine
end

