-- ==== Sys2Proof/Safety.lean ====
section
/-! DEFINITION. The terms the statements are written in: runs of transactions, what a transaction is to the flag, and
the invariant of the state. None of it is used by the machine. -/

namespace Sys2Proof.Machine

/-- The run of the transactions `ts`, in that serialization order, from `s` (70_reset_and_hazards.md R253): one step
for each. -/
def runAll (ts : List Transaction) (s : State) : Result := Sys2Proof.core.run ts.length (presentAll ts s)

/-- A host command, as against a packet (R70). -/
def isCommand : Transaction → Bool
  | .packet _ _ _ => false
  | .command _ _ _ => true

/-- A SET_LED command (R70). -/
def isSetLed : Transaction → Bool
  | .packet _ _ _ => false
  | .command code _ _ => code == 0b10

/-- A ButtonEvent packet (R61). -/
def isButtonEvent (c : Config) : Transaction → Bool
  | .packet op _ _ => op == c.opButtonEvent
  | .command _ _ _ => false

/-- The clearing transactions of 10_state.md R23, read from the transaction's own bits: an Ack packet, a Reset packet, a
ButtonEvent packet when `P_EVENT_FALLTHROUGH = 1`, and INIT. -/
def isClearing (c : Config) : Transaction → Bool
  | .packet op _ _ => op == c.opAck || op == c.opReset || (op == c.opButtonEvent && c.eventFallthrough)
  | .command code _ _ => code == 0b00

/-- A frame `lastLedFrame` can hold: its reset value, or an LED frame of this instance with legal segment bytes (R22,
R64, R65). -/
def frameOk (c : Config) (f : LedFrame) : Bool :=
  f == resetFrame ||
    (f.opcode == c.opLedSet && f.mask == digitSelectMask &&
      (isSegmentByte f.seg0 && isSegmentByte f.seg1 && isSegmentByte f.seg2 && isSegmentByte f.seg3))

/-- A transmit event the block can make: INIT_SEQ, or the six bytes of a frame `lastLedFrame` can hold (R66). -/
def eventOk (c : Config) : List Byte → Bool
  | [b0, b1] => [b0, b1] == initSeq c
  | [b0, b1, b2, b3, b4, b5] => frameOk c ⟨b0, b1, b2, b3, b4, b5⟩
  | _ => false

/-- A response the block can give: a result only with SUCCESS (R71), and then a word below 0x100 (R69). -/
def responseOk (r : Response) : Bool :=
  match r.result with
  | none => true
  | some w => r.status == .success && decide (w.toNat < 0x100)

/-- The state invariant: the frame register, every event and every response are of the forms above; a stored frame other
than the reset value has been transmitted; and while a command is pending the stored frame is an LED frame that has been
transmitted (R23, R150). -/
def State.inv (s : State) : Bool :=
  frameOk s.config s.lastLedFrame &&
  s.outLog.all (eventOk s.config) &&
  s.responses.all responseOk &&
  (s.lastLedFrame == resetFrame || s.outLog.contains (frameBytes s.lastLedFrame)) &&
  (!s.commandPending ||
    (s.lastLedFrame.opcode == s.config.opLedSet && s.lastLedFrame.mask == digitSelectMask &&
      s.outLog.contains (frameBytes s.lastLedFrame)))

end Sys2Proof.Machine
end

