-- ==== Sys2Proof/Certificates/Slice0/Obligations.lean ====
section
/-! DEFINITION. The statements about the RMG protocol engine, each from the rules its docstring names. An equation
`exec i s = .next { s with … }` says the result and the frame at once: every part of the state that is not named, the
configuration, both logs and the environment's transactions among them, is unchanged. A `present t s` is `s` with `t` as
the next transaction. Where a clause rests on a decision or inference the spec marks as its own (D<n>, "derived"), or on
an entry of notes/assumptions (log <n>), the docstring says so. -/

open Sys2Proof Sys2Proof.Machine

/-! ### The step, the decoder and the encoder -/

/-- A step takes the next transaction, decodes it and runs it (R3, R44, R100). Without one it idles: the model's choice,
log 3. An instance whose inbound opcodes are not pairwise distinct is refused: R8's decision D2, log 4. -/
def Obligations.StepRunsTheDecodedTransaction : Prop :=
  ∀ s : State,
    (s.config.legal = true ↔
      s.config.opButtonEvent ≠ s.config.opReset ∧ s.config.opButtonEvent ≠ s.config.opAck ∧
        s.config.opReset ≠ s.config.opAck) ∧
    (s.config.legal = true → ∀ t rest, s.inputs = t :: rest →
      step s = exec (decodeTransaction s.config t) { s with inputs := rest }) ∧
    (s.config.legal = true → s.inputs = [] → step s = .next s) ∧
    (s.config.legal = false → step s = .refused .illegalConfiguration)

/-- One word of each format written out from the encodings of R60, R63, R64 and R70, at the configuration
0x11, 0x22, 0x33, 0x44, 0x55, 0x66. The command codes are the decision D7; the bit numbering of a table word is log 7. -/
def Obligations.WrittenOutWordsDecode : Prop :=
  (∀ f : Bool,
    decode ⟨0x11, 0x22, 0x33, 0x44, 0x55, 0x66, f⟩ (.inbound (.packet 0x11 0x05 0x0A)) =
      .ok (if f then .buttonEventFallthrough 0x05 0x0A else .buttonEvent 0x05 0x0A) ∧
    decode ⟨0x11, 0x22, 0x33, 0x44, 0x55, 0x66, f⟩ (.inbound (.packet 0x22 0xAB 0xCD)) = .ok (.reset 0xAB 0xCD) ∧
    decode ⟨0x11, 0x22, 0x33, 0x44, 0x55, 0x66, f⟩ (.inbound (.packet 0x33 0x12 0x34)) = .ok (.ack 0x12 0x34) ∧
    decode ⟨0x11, 0x22, 0x33, 0x44, 0x55, 0x66, f⟩ (.inbound (.packet 0x44 0x0F 0x00)) = .ok (.other 0x44 0x0F 0x00) ∧
    decode ⟨0x11, 0x22, 0x33, 0x44, 0x55, 0x66, f⟩ (.outbound [0x55, 0x66]) = .ok .outInitSeq ∧
    decode ⟨0x11, 0x22, 0x33, 0x44, 0x55, 0x66, f⟩ (.outbound [0x44, 0x0F, 0x2E, 0x8F, 0xCB, 0x06]) =
      .ok (.outLedFrame 0x2E 0x8F 0xCB 0x06)) ∧
  decodeTableWord 40 0b00_00000000000000000000000000000000_0 = some (.init 0x00000000 false) ∧
  decodeTableWord 40 0b01_00000000000000000000000000000000_1 = some (.getButtons 0x00000000 true) ∧
  decodeTableWord 40 0b10_00000000000011110001001000110100_0 = some (.setLed 0x000F1234 false) ∧
  decodeTableWord 40 0b11_00000000000000000000000000000001_0 = some (.reserved 0x00000001 false)

/-- Every well-formed instruction decodes back from its encoding, every operand at every value (R61, R63, R64, R70). -/
def Obligations.EncodedInstructionDecodesBack : Prop :=
  ∀ (c : Config) (i : Instr), c.legal = true → i.wf c = true → decode c (encode c i) = .ok i

/-- What decodes is well-formed, and its encoding is the unit it was decoded from (R61, R70); and no two well-formed
instructions of a legal instance share a unit. The two BUTTON_EVENT rows have the same words, but no instance has both
(log 8); that the output rows are read back at all is log 6. -/
def Obligations.DecodedUnitEncodesBack : Prop :=
  (∀ (c : Config) (u : WireUnit) (i : Instr), decode c u = .ok i → i.wf c = true ∧ encode c i = u) ∧
  ∀ (c : Config) (i j : Instr), c.legal = true → i.wf c = true → j.wf c = true → encode c i = encode c j → i = j

/-- R60: a packet is exactly three bytes, opcode first. R61 and R62: the opcode byte alone picks exactly one row, for
each of its 256 values, and the data bytes only become the operands. That the map is total and unambiguous is the spec's
own inference from R8. -/
def Obligations.PacketOpcodeMapIsTotal : Prop :=
  (∀ (bytes : List Byte) (t : Transaction),
    packetOfBytes bytes = .ok t ↔ ∃ op d1 d2, bytes = [op, d1, d2] ∧ t = .packet op d1 d2) ∧
  ∀ (c : Config), c.legal = true → ∀ op d1 d2 : Byte,
    (op = c.opButtonEvent → op ≠ c.opReset ∧ op ≠ c.opAck ∧
      decodeTransaction c (.packet op d1 d2) =
        if c.eventFallthrough then .buttonEventFallthrough d1 d2 else .buttonEvent d1 d2) ∧
    (op = c.opReset → op ≠ c.opButtonEvent ∧ op ≠ c.opAck ∧
      decodeTransaction c (.packet op d1 d2) = .reset d1 d2) ∧
    (op = c.opAck → op ≠ c.opButtonEvent ∧ op ≠ c.opReset ∧ decodeTransaction c (.packet op d1 d2) = .ack d1 d2) ∧
    (op ≠ c.opButtonEvent → op ≠ c.opReset → op ≠ c.opAck →
      decodeTransaction c (.packet op d1 d2) = .other op d1 d2)

/-! ### Packets (40_packet_decoder.md) -/

/-- R101: a ButtonEvent packet without fallthrough stores its data bytes and does nothing else. Which byte goes where is
the spec's decision D5. -/
def Obligations.ButtonEventStoresTheDataBytes : Prop :=
  ∀ (s : State) (d1 d2 : Byte),
    exec (.buttonEvent d1 d2) s = .next { s with lastButtons := ⟨d1, d2⟩ } ∧
    (s.config.legal = true → s.config.eventFallthrough = false →
      step (present (.packet s.config.opButtonEvent d1 d2) s) = .next { s with lastButtons := ⟨d1, d2⟩ })

/-- R102: with fallthrough a ButtonEvent packet stores its data bytes (in the order of D5) and performs the whole Reset
action in the same transaction. -/
def Obligations.ButtonEventFallthroughAlsoResets : Prop :=
  ∀ (s t : State) (d1 d2 : Byte),
    t = { s with
      lastButtons := ⟨d1, d2⟩
      commandPending := false
      outLog := s.outLog ++ [[s.config.opEnableButtons, s.config.opSelectLedMode], frameBytes s.lastLedFrame,
        frameBytes s.lastLedFrame] } →
    exec (.buttonEventFallthrough d1 d2) s = .next t ∧
    (s.config.legal = true → s.config.eventFallthrough = true →
      step (present (.packet s.config.opButtonEvent d1 d2) s) = .next t)

/-- R103: a Reset packet transmits INIT_SEQ and the last frame twice, clears the flag, and does nothing else, whatever
its data bytes and the flag were. From the block reset the frame replayed is six zero bytes: the spec's decision D15. -/
def Obligations.ResetPacketReplaysTheLastFrame : Prop :=
  (∀ (s t : State) (d1 d2 : Byte),
    t = { s with
      commandPending := false
      outLog := s.outLog ++ [[s.config.opEnableButtons, s.config.opSelectLedMode], frameBytes s.lastLedFrame,
        frameBytes s.lastLedFrame] } →
    exec (.reset d1 d2) s = .next t ∧
    (s.config.legal = true → step (present (.packet s.config.opReset d1 d2) s) = .next t)) ∧
  ∀ (c : Config) (d1 d2 : Byte), c.legal = true →
    step (present (.packet c.opReset d1 d2) (State.resetWith c)) =
      .next { State.resetWith c with
        outLog := [[c.opEnableButtons, c.opSelectLedMode], [0x00, 0x00, 0x00, 0x00, 0x00, 0x00],
          [0x00, 0x00, 0x00, 0x00, 0x00, 0x00]] }

/-- R104: an Ack packet clears the flag, whatever was sent and whatever its data bytes, and does nothing else; with the
flag clear it changes nothing; the next SET_LED succeeds. -/
def Obligations.AckClearsThePendingFlag : Prop :=
  ∀ (s : State) (d1 d2 : Byte),
    exec (.ack d1 d2) s = .next { s with commandPending := false } ∧
    (s.commandPending = false → exec (.ack d1 d2) s = .next s) ∧
    (s.config.legal = true →
      step (present (.packet s.config.opAck d1 d2) s) = .next { s with commandPending := false } ∧
      ∀ (arg : Word) (p : Bool), ∃ t,
        step (present (.command 0b10 arg p) { s with commandPending := false }) = .next t ∧
        t.responses = s.responses ++ [⟨.success, none⟩])

/-- R105: a packet whose opcode is none of the three inbound ones changes nothing; an outbound opcode value is such a
packet too unless it equals an inbound one. -/
def Obligations.OtherPacketIsIgnored : Prop :=
  ∀ (s : State) (op d1 d2 : Byte),
    exec (.other op d1 d2) s = .next s ∧
    (s.config.legal = true → op ≠ s.config.opButtonEvent → op ≠ s.config.opReset → op ≠ s.config.opAck →
      step (present (.packet op d1 d2) s) = .next s) ∧
    (s.config.legal = true → s.config.opLedSet ≠ s.config.opButtonEvent → s.config.opLedSet ≠ s.config.opReset →
      s.config.opLedSet ≠ s.config.opAck → step (present (.packet s.config.opLedSet d1 d2) s) = .next s)

/-- R106: a packet always completes, gives no response, and its side effects are limited to the three registers and new
transmit events. -/
def Obligations.PacketsCompleteWithoutResponse : Prop :=
  ∀ (s : State) (op d1 d2 : Byte), s.config.legal = true →
    ∃ (buttons : ButtonSnapshot) (frame : LedFrame) (pending : Bool) (events : List (List Byte)),
      step (present (.packet op d1 d2) s) =
        .next { s with
          lastButtons := buttons
          lastLedFrame := frame
          commandPending := pending
          outLog := s.outLog ++ events }

/-- R244: a Reset packet is no block reset. Any number of them only transmit and clear the flag: the buttons and the
last frame survive. -/
def Obligations.ResetPacketsKeepButtonsAndFrame : Prop :=
  ∀ (s : State) (data : List (Byte × Byte)), s.config.legal = true →
    runAll (data.map fun d => .packet s.config.opReset d.1 d.2) s =
      .next { s with
        inputs := []
        commandPending := data.isEmpty && s.commandPending
        outLog := s.outLog ++ (data.map fun _ =>
          [[s.config.opEnableButtons, s.config.opSelectLedMode], frameBytes s.lastLedFrame,
            frameBytes s.lastLedFrame]).flatten }

/-- R249: with fallthrough every ButtonEvent of a stream transmits 14 bytes (INIT_SEQ, then the frame twice) and clears
the flag, so the gate is open after any of them. -/
def Obligations.FallthroughStreamLoadsTheLink : Prop :=
  ∀ (s : State) (events : List Transaction), s.config.legal = true → s.config.eventFallthrough = true →
    (∀ u ∈ events, isButtonEvent s.config u = true) →
    ∃ t, runAll events s = .next t ∧
      t.outLog = s.outLog ++ (events.map fun _ =>
        [[s.config.opEnableButtons, s.config.opSelectLedMode], frameBytes s.lastLedFrame,
          frameBytes s.lastLedFrame]).flatten ∧
      t.outLog.flatten.length = s.outLog.flatten.length + 14 * events.length ∧
      (events ≠ [] → t.commandPending = false ∧ ∀ (arg : Word) (p : Bool), ∃ t',
        step (present (.command 0b10 arg p) t) = .next t' ∧ t'.responses = t.responses ++ [⟨.success, none⟩])

/-! ### Combinational functions -/

/-- R69 and R120: REMAP bit by bit, as one expression, and the rule's example. -/
def Obligations.RemapPlacesTheButtonBits : Prop :=
  (∀ b0 b1 : Byte,
    (∀ i, i < 4 → (remap b0 b1).getLsbD i = b0.getLsbD i) ∧
    (remap b0 b1).getLsbD 4 = b1.getLsbD 0 ∧
    (remap b0 b1).getLsbD 5 = b1.getLsbD 2 ∧
    (remap b0 b1).getLsbD 6 = b1.getLsbD 1 ∧
    (remap b0 b1).getLsbD 7 = b1.getLsbD 3 ∧
    (∀ i, 8 ≤ i → (remap b0 b1).getLsbD i = false) ∧
    remap b0 b1 =
      ((b0.extractLsb' 0 4).setWidth 8 ||| ((b1.extractLsb' 0 1).setWidth 8 <<< 4) |||
        ((b1.extractLsb' 2 1).setWidth 8 <<< 5) ||| ((b1.extractLsb' 1 1).setWidth 8 <<< 6) |||
        ((b1.extractLsb' 3 1).setWidth 8 <<< 7)).setWidth 32) ∧
  remap 0x05 0x0A = 0x000000C5

/-- R121: REMAP depends on exactly the low nibbles of the two bytes, and every word below 0x100 is the image of the
bytes the inverse gives. These are the spec's own inferences from R120. -/
def Obligations.RemapIsABijectionOnLowNibbles : Prop :=
  (∀ b0 b1 b0' b1' : Byte,
    remap b0 b1 = remap b0' b1' ↔ b0.extractLsb' 0 4 = b0'.extractLsb' 0 4 ∧ b1.extractLsb' 0 4 = b1'.extractLsb' 0 4) ∧
  (∀ b0 b1 : Byte, (remap b0 b1).toNat < 0x100) ∧
  ∀ (w : Word) (b0 b1 : Byte), w.toNat < 0x100 → (∀ i, i < 4 → b0.getLsbD i = w.getLsbD i) →
    b1.getLsbD 0 = w.getLsbD 4 → b1.getLsbD 1 = w.getLsbD 6 → b1.getLsbD 2 = w.getLsbD 5 →
    b1.getLsbD 3 = w.getLsbD 7 → remap b0 b1 = w

/-- R64, R131 and R133: the frame of a request. `seg i` is 0x00 when `req[16+i]` is clear, else the source's table at
the digit `(req[15:0] >> 4i) & 0xF`, plus 16 when `req[24+i]` is set. The table is written out from the source's list. -/
def Obligations.EncodeBuildsTheFrame : Prop :=
  (∀ (req : Word) (i : Fin 4),
    (digitAt req i).setWidth 16 = (req.extractLsb' 0 16 >>> (4 * i.val)) &&& 0x000F ∧
    digitAt req i = req.extractLsb' (4 * i.val) 4 ∧
    enableAt req i = req.getLsbD (16 + i.val) ∧ decimalAt req i = req.getLsbD (24 + i.val)) ∧
  (∀ (c : Config) (req : Word) (seg : Fin 4 → Byte),
    (∀ i : Fin 4, seg i =
      if req.getLsbD (16 + i.val) then
        [0xE7, 0x06, 0xCB, 0x8F, 0x2E, 0xAD, 0xED, 0x86, 0xEF, 0xAE, 0xEE, 0x6D, 0xE1, 0x4F, 0xE9, 0xE8].getD
            ((req.extractLsb' 0 16 >>> (4 * i.val)) &&& 0x000F).toNat 0x00 +
          (if req.getLsbD (24 + i.val) then 16 else 0)
      else 0x00) →
    frameBytes (ledEncode c req) = [c.opLedSet, 0x0F, seg 0, seg 1, seg 2, seg 3]) ∧
  ∀ c : Config, frameBytes (ledEncode c 0x000F1234) = [c.opLedSet, 0x0F, 0x2E, 0x8F, 0xCB, 0x06]

/-- R65, R132 and R134: adding 16 never carries and is setting bit 4, which is clear in every table entry; a segment is
0x00 exactly when its position is disabled; bit 4 shows the decimal point of an enabled position; a position depends on
its own fields only. These are the spec's own inferences from R130 to R133. -/
def Obligations.SegmentLanesAreIndependent : Prop :=
  (∀ digit : BitVec 4, (segLut digit).getLsbD 4 = false ∧ (segLut digit).toNat + 16 < 256 ∧
    segLut digit + 16 = segLut digit ||| 0x10) ∧
  (∀ (req : Word) (i : Fin 4),
    (segmentAt req i = 0x00 ↔ req.getLsbD (16 + i.val) = false) ∧
    (segmentAt req i).getLsbD 4 = (req.getLsbD (16 + i.val) && req.getLsbD (24 + i.val)) ∧
    isSegmentByte (segmentAt req i) = true) ∧
  ∀ (req req' : Word) (i : Fin 4),
    req.extractLsb' (4 * i.val) 4 = req'.extractLsb' (4 * i.val) 4 →
    req.getLsbD (16 + i.val) = req'.getLsbD (16 + i.val) →
    req.getLsbD (24 + i.val) = req'.getLsbD (24 + i.val) → segmentAt req i = segmentAt req' i

/-- R68: bits 23:20 and 31:28 of a request have no effect on the frame or on SET_LED, and no request value is refused
as an invalid argument. -/
def Obligations.UnusedRequestBitsHaveNoEffect : Prop :=
  (∀ (c : Config) (req req' : Word), req &&& 0x0F0FFFFF = req' &&& 0x0F0FFFFF → ledEncode c req = ledEncode c req') ∧
  (∀ (s : State) (req req' : Word) (p : Bool), req &&& 0x0F0FFFFF = req' &&& 0x0F0FFFFF →
    exec (.setLed req p) s = exec (.setLed req' p) s) ∧
  ∀ (s : State) (req : Word) (p : Bool), ∃ t status,
    exec (.setLed req p) s = .next t ∧ t.responses = s.responses ++ [⟨status, none⟩] ∧ status ≠ .invalidArgument

/-! ### Host commands (43_ack_gate.md, 44_command_facade.md) -/

/-- R160: INIT transmits INIT_SEQ as one event, clears the flag and succeeds, whatever its operands. That the buttons
and the last frame stay is the spec's decision D14. -/
def Obligations.InitTransmitsAndClears : Prop :=
  ∀ (s t : State) (arg : Word) (p : Bool),
    t = { s with
      commandPending := false
      outLog := s.outLog ++ [[s.config.opEnableButtons, s.config.opSelectLedMode]]
      responses := s.responses ++ [⟨.success, none⟩] } →
    exec (.init arg p) s = .next t ∧
    (s.config.legal = true → step (present (.command 0b00 arg p) s) = .next t)

/-- R161: GET_BUTTONS answers the remapped snapshot whatever the flag, or INVALID_ARGUMENT without a result when no slot
is given, and does nothing else. Reading "absent/null" as `slot_present = 0` is the spec's decision D9. -/
def Obligations.GetButtonsAnswersTheRemappedSnapshot : Prop :=
  ∀ (s : State) (arg : Word),
    exec (.getButtons arg true) s =
      .next { s with
        responses := s.responses ++ [⟨.success, some (remap s.lastButtons.b0 s.lastButtons.b1)⟩] } ∧
    exec (.getButtons arg false) s =
      .next { s with responses := s.responses ++ [⟨.invalidArgument, none⟩] } ∧
    (s.config.legal = true → ∀ p : Bool,
      step (present (.command 0b01 arg p) s) = exec (.getButtons arg p) s)

/-- R150 and R162: SET_LED is TRY_SET_LED of the encoded request, for which `slot_present` is ignored. While a command
is pending it is BUSY without a write or an event; else it sets the flag, stores the frame, sends it twice and succeeds.
With the two rules' examples from reset. -/
def Obligations.SetLedIsGuardedByPending : Prop :=
  (∀ (s : State) (frame : LedFrame),
    (s.commandPending = true →
      trySetLed frame s = .next { s with responses := s.responses ++ [⟨.busy, none⟩] }) ∧
    (s.commandPending = false →
      trySetLed frame s =
        .next { s with
          commandPending := true
          lastLedFrame := frame
          outLog := s.outLog ++ [frameBytes frame, frameBytes frame]
          responses := s.responses ++ [⟨.success, none⟩] })) ∧
  (∀ (s : State) (arg : Word) (p : Bool),
    (s.commandPending = true →
      exec (.setLed arg p) s = .next { s with responses := s.responses ++ [⟨.busy, none⟩] }) ∧
    (s.commandPending = false →
      exec (.setLed arg p) s =
        .next { s with
          commandPending := true
          lastLedFrame := ledEncode s.config arg
          outLog := s.outLog ++ [frameBytes (ledEncode s.config arg), frameBytes (ledEncode s.config arg)]
          responses := s.responses ++ [⟨.success, none⟩] }) ∧
    (s.config.legal = true → step (present (.command 0b10 arg p) s) = exec (.setLed arg p) s)) ∧
  ∀ (c : Config) (p : Bool), c.legal = true →
    ∃ t, step (present (.command 0b10 0x000F1234 p) (State.resetWith c)) = .next t ∧
      t.responses = [⟨.success, none⟩] ∧ t.commandPending = true ∧
      frameBytes t.lastLedFrame = [c.opLedSet, 0x0F, 0x2E, 0x8F, 0xCB, 0x06] ∧
      t.outLog = [frameBytes t.lastLedFrame, frameBytes t.lastLedFrame] ∧
      step (present (.command 0b10 0x000F1234 p) t) =
        .next { t with responses := [⟨.success, none⟩, ⟨.busy, none⟩] }

/-- R163: the reserved command code completes with INVALID_ARGUMENT and has no other effect: the spec's decision D8. -/
def Obligations.ReservedCommandHasNoEffect : Prop :=
  ∀ (s : State) (arg : Word) (p : Bool),
    exec (.reserved arg p) s = .next { s with responses := s.responses ++ [⟨.invalidArgument, none⟩] } ∧
    (s.config.legal = true →
      step (present (.command 0b11 arg p) s) =
        .next { s with responses := s.responses ++ [⟨.invalidArgument, none⟩] })

/-- R63 and R64: the output rows are one transmit event each, and what INIT and an accepted SET_LED transmit are those
rows. Giving the output rows this meaning of their own is the model's reading, log 6. -/
def Obligations.OutputRowsAreTheEmittedUnits : Prop :=
  (∀ s : State, exec .outInitSeq s =
    .next { s with outLog := s.outLog ++ [[s.config.opEnableButtons, s.config.opSelectLedMode]] }) ∧
  (∀ (s : State) (s0 s1 s2 s3 : Byte), exec (.outLedFrame s0 s1 s2 s3) s =
    .next { s with outLog := s.outLog ++ [[s.config.opLedSet, 0x0F, s0, s1, s2, s3]] }) ∧
  (∀ (s t : State) (arg : Word) (p : Bool), exec .outInitSeq s = .next t →
    exec (.init arg p) s =
      .next { t with commandPending := false, responses := s.responses ++ [⟨.success, none⟩] }) ∧
  ∀ (s : State) (arg : Word) (p : Bool), s.commandPending = false →
    ∃ s0 s1 s2 s3 t t', (Instr.outLedFrame s0 s1 s2 s3).wf s.config = true ∧
      exec (.outLedFrame s0 s1 s2 s3) s = .next t ∧ exec (.outLedFrame s0 s1 s2 s3) t = .next t' ∧
      exec (.setLed arg p) s =
        .next { t' with
          commandPending := true
          lastLedFrame := ledEncode s.config arg
          responses := s.responses ++ [⟨.success, none⟩] }

/-! ### Errors and responses (60_exceptions.md) -/

/-- R200: there is no trap; every host command completes with exactly one status, and one that completes with an error
status writes no state and transmits nothing. -/
def Obligations.ErrorStatusesHaveNoEffect : Prop :=
  (∀ (s : State) (f : Fault), step s ≠ .fault f) ∧
  ∀ (s : State) (code : BitVec 2) (arg : Word) (p : Bool), s.config.legal = true →
    ∃ t r, step (present (.command code arg p) s) = .next t ∧ t.responses = s.responses ++ [r] ∧
      (r.status ≠ .success → t = { s with responses := s.responses ++ [r] })

/-- R71, R72, R201 and R207: which status and result each command completes with. The codes are the spec's decisions D7
and D10, the missing result D11, the null slot D9 and the reserved code D8. -/
def Obligations.StatusOfEveryCommand : Prop :=
  ∀ (s t : State) (code : BitVec 2) (arg : Word) (p : Bool),
    step (present (.command code arg p) s) = .next t →
    ∃ r, t.responses = s.responses ++ [r] ∧
      (statusCode r.status = 0b01 ↔ (code = 0b01 ∧ p = false) ∨ code = 0b11) ∧
      (statusCode r.status = 0b10 ↔ code = 0b10 ∧ s.commandPending = true) ∧
      (statusCode r.status = 0b00 ↔
        code = 0b00 ∨ (code = 0b01 ∧ p = true) ∨ (code = 0b10 ∧ s.commandPending = false)) ∧
      (resultValid r = true ↔ code = 0b01 ∧ p = true) ∧
      (code = 0b01 → p = true → r.result = some (remap s.lastButtons.b0 s.lastButtons.b1))

/-- R253, R71 and R106 over runs: any sequence of transactions runs to its end with none left over; it adds one response
for each host command and none for a packet, and a result word only with SUCCESS and below 0x100. The response log is
the model's field, log 5. -/
def Obligations.OneResponseForEachCommand : Prop :=
  ∀ (s : State) (ts : List Transaction), s.config.legal = true →
    ∃ t rs, runAll ts s = .next t ∧ t.inputs = [] ∧ t.responses = s.responses ++ rs ∧
      rs.length = (ts.filter isCommand).length ∧
      ∀ r ∈ rs, ∀ w, r.result = some w → r.status = .success ∧ w.toNat < 0x100

/-! ### The pending flag (10_state.md R23 to R25; 70_reset_and_hazards.md R245 to R247) -/

/-- R23: the flag's reset value; every write of it; and that only SET_LED reads it: with another flag value, any other
transaction leads to the same state but for the flag. -/
def Obligations.PendingIsWrittenOnlyAsListed : Prop :=
  (∀ c : Config, (State.resetWith c).commandPending = false) ∧
  ∀ (s t : State) (u : Transaction), step (present u s) = .next t →
    t.commandPending = (if isClearing s.config u then false else isSetLed u || s.commandPending) ∧
    (s.commandPending = false → t.commandPending = true →
      isSetLed u = true ∧ t.responses = s.responses ++ [⟨.success, none⟩]) ∧
    (isSetLed u = false → ∀ b : Bool, ∃ b' : Bool,
      step (present u { s with commandPending := b }) = .next { t with commandPending := b' })

/-- R24, for a run of any transactions from any state: at its end the flag is 1 exactly when some SET_LED of the run
completed with SUCCESS and no clearing transaction came after it, or it was 1 before and no clearing transaction came.
That the frames a Reset packet replays do not set it is the spec's inference. -/
def Obligations.PendingMeansAcceptedAndNotCleared : Prop :=
  (∀ (s t : State) (ts : List Transaction), runAll ts s = .next t → s.config.legal = true →
    (t.commandPending = true ↔
      (∃ pre u post m, ts = pre ++ u :: post ∧ isSetLed u = true ∧
        (∀ v ∈ post, isClearing s.config v = false) ∧
        runAll (pre ++ [u]) s = .next m ∧ m.responses.getLast? = some ⟨.success, none⟩) ∨
      (s.commandPending = true ∧ ∀ v ∈ ts, isClearing s.config v = false))) ∧
  ∀ (s t : State) (d1 d2 : Byte), s.config.legal = true →
    step (present (.packet s.config.opReset d1 d2) s) = .next t → t.commandPending = false

/-- R245: after a SET_LED that returned SUCCESS every later SET_LED is BUSY, without any effect, through any transactions
but the four clearing ones; after a clearing one the next SET_LED succeeds; and no other transaction's response depends
on the flag. -/
def Obligations.SingleOutstandingCommand : Prop :=
  (∀ (s m : State) (arg : Word) (p : Bool), s.config.legal = true →
    step (present (.command 0b10 arg p) s) = .next m → m.responses = s.responses ++ [⟨.success, none⟩] →
    ∀ ts : List Transaction, (∀ u ∈ ts, isClearing s.config u = false) →
      (∃ m', runAll ts m = .next m' ∧ ∀ (arg' : Word) (p' : Bool),
        step (present (.command 0b10 arg' p') m') =
          .next { m' with responses := m'.responses ++ [⟨.busy, none⟩] }) ∧
      ∀ u, isClearing s.config u = true →
        ∃ m', runAll (ts ++ [u]) m = .next m' ∧ ∀ (arg' : Word) (p' : Bool), ∃ t,
          step (present (.command 0b10 arg' p') m') = .next t ∧
          t.responses = m'.responses ++ [⟨.success, none⟩]) ∧
  ∀ (s t t' : State) (u : Transaction) (b : Bool), isSetLed u = false →
    step (present u s) = .next t → step (present u { s with commandPending := b }) = .next t' →
    t'.responses = t.responses

/-- R246: with no clearing transaction the flag stays 1 without limit and every SET_LED is BUSY; issuing INIT recovers:
the next SET_LED succeeds. -/
def Obligations.LostAckIsRecoveredByInit : Prop :=
  ∀ (s : State) (ts : List Transaction), s.config.legal = true → s.commandPending = true →
    (∀ u ∈ ts, isClearing s.config u = false) →
    ∃ m, runAll ts s = .next m ∧ m.commandPending = true ∧
      (∀ (arg : Word) (p : Bool), step (present (.command 0b10 arg p) m) =
        .next { m with responses := m.responses ++ [⟨.busy, none⟩] }) ∧
      ∀ (arg arg' : Word) (p p' : Bool), ∃ t,
        runAll [.command 0b00 arg p, .command 0b10 arg' p'] m = .next t ∧
        t.responses = m.responses ++ [⟨.success, none⟩, ⟨.success, none⟩]

/-- R247: an Ack is tied to no frame: an extra Ack opens the gate although the newer frame was never acknowledged, so a
third SET_LED goes out behind it. The spec's inference from R104. -/
def Obligations.ExtraAckOpensTheGate : Prop :=
  ∀ (s : State) (a b c : Word) (p : Bool) (d1 d2 : Byte), s.config.legal = true → s.commandPending = false →
    ∃ t, runAll [.command 0b10 a p, .packet s.config.opAck d1 d2, .command 0b10 b p,
        .packet s.config.opAck d1 d2, .command 0b10 c p] s = .next t ∧
      t.responses = s.responses ++ [⟨.success, none⟩, ⟨.success, none⟩, ⟨.success, none⟩] ∧
      t.outLog = s.outLog ++
        [frameBytes (ledEncode s.config a), frameBytes (ledEncode s.config a),
         frameBytes (ledEncode s.config b), frameBytes (ledEncode s.config b),
         frameBytes (ledEncode s.config c), frameBytes (ledEncode s.config c)]

/-- R151: a refused frame is discarded, so every later Reset replays the frame that was pending, until another SET_LED is
accepted: after the refused SET_LED come any transactions that do not clear the flag (`held`, further refused SET_LEDs
among them, and they transmit nothing), then any transactions but SET_LED (`freed`, clearing ones among them), then the
Reset. And an accepted frame equal to the last is sent again like any other. The spec's inferences from R150 and R103. -/
def Obligations.RefusedFrameIsNeverReplayed : Prop :=
  (∀ (s : State) (arg : Word) (p : Bool) (held freed : List Transaction) (d1 d2 : Byte),
    s.config.legal = true → s.commandPending = true →
    (∀ u ∈ held, isClearing s.config u = false) → (∀ u ∈ freed, isSetLed u = false) →
    ∃ h m t, runAll (.command 0b10 arg p :: held) s = .next h ∧ h.outLog = s.outLog ∧
      runAll (.command 0b10 arg p :: (held ++ freed)) s = .next m ∧
      runAll (.command 0b10 arg p :: (held ++ freed ++ [.packet s.config.opReset d1 d2])) s = .next t ∧
      h.lastLedFrame = s.lastLedFrame ∧ m.lastLedFrame = s.lastLedFrame ∧ t.lastLedFrame = s.lastLedFrame ∧
      t.outLog = m.outLog ++ [[s.config.opEnableButtons, s.config.opSelectLedMode],
        frameBytes s.lastLedFrame, frameBytes s.lastLedFrame]) ∧
  ∀ (s : State) (arg : Word) (p : Bool), s.config.legal = true → s.commandPending = false →
    s.lastLedFrame = ledEncode s.config arg →
    ∃ t, step (present (.command 0b10 arg p) s) = .next t ∧ t.lastLedFrame = s.lastLedFrame ∧
      t.outLog = s.outLog ++ [frameBytes s.lastLedFrame, frameBytes s.lastLedFrame]

/-- R206: an Ack and a SET_LED ready together while a command is pending: both orders are runs of the machine, and they
differ as the rule says. That the order is free is the spec's decision D6 (log 2). -/
def Obligations.BothSerializationOrdersRun : Prop :=
  ∀ (s : State) (arg : Word) (p : Bool) (d1 d2 : Byte), s.config.legal = true → s.commandPending = true →
    runAll [.packet s.config.opAck d1 d2, .command 0b10 arg p] s =
      .next { s with
        inputs := []
        lastLedFrame := ledEncode s.config arg
        outLog := s.outLog ++ [frameBytes (ledEncode s.config arg), frameBytes (ledEncode s.config arg)]
        responses := s.responses ++ [⟨.success, none⟩] } ∧
    runAll [.command 0b10 arg p, .packet s.config.opAck d1 d2] s =
      .next { s with
        inputs := []
        commandPending := false
        responses := s.responses ++ [⟨.busy, none⟩] }

/-! ### The whole machine -/

/-- R250: GET_BUTTONS answers the snapshot the last ButtonEvent before it left, however many other transactions came
between; and 0 when there has been none since the block reset. -/
def Obligations.GetButtonsAnswersTheLatestSnapshot : Prop :=
  (∀ (s : State) (pre post : List Transaction) (event : Transaction) (arg : Word), s.config.legal = true →
    isButtonEvent s.config event = true → (∀ u ∈ post, isButtonEvent s.config u = false) →
    ∃ a m, runAll (pre ++ [event]) s = .next a ∧ runAll (pre ++ event :: post) s = .next m ∧
      step (present (.command 0b01 arg true) m) =
        .next { m with
          responses := m.responses ++ [⟨.success, some (remap a.lastButtons.b0 a.lastButtons.b1)⟩] }) ∧
  ∀ (c : Config) (ts : List Transaction) (arg : Word), c.legal = true →
    (∀ u ∈ ts, isButtonEvent c u = false) →
    ∃ m, runAll ts (State.resetWith c) = .next m ∧
      step (present (.command 0b01 arg true) m) =
        .next { m with responses := m.responses ++ [⟨.success, some 0x00000000⟩] }

/-- R250 with R101 and R102, whatever `P_EVENT_FALLTHROUGH`: GET_BUTTONS answers REMAP of the two data bytes of the last
ButtonEvent packet before it, however many other transactions came between. Which byte is which is the spec's decision
D5. -/
def Obligations.GetButtonsAnswersTheLastEventsDataBytes : Prop :=
  ∀ (s : State) (pre post : List Transaction) (d1 d2 : Byte) (arg : Word), s.config.legal = true →
    (∀ u ∈ post, isButtonEvent s.config u = false) →
    ∃ m, runAll (pre ++ .packet s.config.opButtonEvent d1 d2 :: post) s = .next m ∧ m.lastButtons = ⟨d1, d2⟩ ∧
      step (present (.command 0b01 arg true) m) =
        .next { m with responses := m.responses ++ [⟨.success, some (remap d1 d2)⟩] }

/-- R47: what every transaction writes of the three registers and transmits: each register's value after any
transaction, and the events added. The table is the spec's own inference from the rules of files 40 to 44; the byte order
in the buttons is D5. -/
def Obligations.TransactionEffectsTable : Prop :=
  ∀ (s t : State) (u : Transaction), step (present u s) = .next t →
    (isButtonEvent s.config u = false → t.lastButtons = s.lastButtons) ∧
    (∀ op d1 d2, u = .packet op d1 d2 → op = s.config.opButtonEvent → t.lastButtons = ⟨d1, d2⟩) ∧
    (isSetLed u = false ∨ s.commandPending = true → t.lastLedFrame = s.lastLedFrame) ∧
    (∀ code arg p, u = .command code arg p → code = 0b10 → s.commandPending = false →
      t.lastLedFrame = ledEncode s.config arg) ∧
    t.commandPending = (if isClearing s.config u then false else isSetLed u || s.commandPending) ∧
    t.outLog = s.outLog ++
      match u with
      | .packet op _ _ =>
        if op = s.config.opReset ∨ (op = s.config.opButtonEvent ∧ s.config.eventFallthrough = true) then
          [[s.config.opEnableButtons, s.config.opSelectLedMode], frameBytes s.lastLedFrame,
            frameBytes s.lastLedFrame]
        else []
      | .command code arg _ =>
        if code = 0b00 then [[s.config.opEnableButtons, s.config.opSelectLedMode]]
        else if code = 0b10 ∧ s.commandPending = false then
          [frameBytes (ledEncode s.config arg), frameBytes (ledEncode s.config arg)]
        else []

/-- R27: no step and no instruction writes the configuration; and R107: a step takes exactly the next transaction and
nothing else of what the environment has presented. -/
def Obligations.ConfigurationIsConstant : Prop :=
  (∀ s t : State, step s = .next t → t.config = s.config ∧ t.inputs = s.inputs.tail) ∧
  ∀ (i : Instr) (s t : State), exec i s = .next t → t.config = s.config ∧ t.inputs = s.inputs

/-- R44 and R252: a run of one sequence and then another is the run of both, so a transaction sees the whole effect of
those before it and nothing else of them. -/
def Obligations.RunsComposeInSerialOrder : Prop :=
  ∀ (s : State) (ts us : List Transaction),
    runAll (ts ++ us) s =
      match runAll ts s with
      | .next m => runAll us m
      | .fault f => .fault f
      | .refused r => .refused r

/-- R26 and R202: no transaction reads the outbound log or the responses. A run adds the same events and the same
responses, and ends in the same registers, whatever was in the two logs before it. -/
def Obligations.OutputLogsAreNeverRead : Prop :=
  ∀ (s t : State) (ts : List Transaction), runAll ts s = .next t →
    ∃ events rs, t.outLog = s.outLog ++ events ∧ t.responses = s.responses ++ rs ∧
      ∀ (log : List (List Byte)) (old : List Response),
        runAll ts { s with outLog := log, responses := old } =
          .next { t with outLog := log ++ events, responses := old ++ rs }

/-- R121: bits 7:4 of the two stored button bytes are observable through no run of transactions: two states that differ
only in them give the same events, the same responses, the same frame and the same flag. The spec's own inference. -/
def Obligations.UpperSnapshotBitsAreUnobservable : Prop :=
  ∀ (s t : State) (b : ButtonSnapshot) (ts : List Transaction),
    b.b0.extractLsb' 0 4 = s.lastButtons.b0.extractLsb' 0 4 →
    b.b1.extractLsb' 0 4 = s.lastButtons.b1.extractLsb' 0 4 →
    runAll ts s = .next t →
    ∃ b', runAll ts { s with lastButtons := b } = .next { t with lastButtons := b' }

/-- The state invariant holds after every step from any state it holds in: the frame register holds its reset value or an
LED frame of this instance (R22, R64, R65), every event is INIT_SEQ or such a frame (R66), results are below 0x100 and
come with SUCCESS only (R69, R71), and a stored or pending frame has been transmitted (R150). -/
def Obligations.StepKeepsTheStateInvariant : Prop :=
  ∀ s t : State, s.inv = true → step s = .next t → t.inv = true

/-- The state invariant holds at the block reset of every instance. -/
def Obligations.ResetMeetsTheStateInvariant : Prop :=
  (∀ c : Config, (State.resetWith c).inv = true) ∧ State.reset.inv = true

/-- R240 to R242: the block reset zeroes the registers and transmits nothing, and the first transaction after it is
defined without an INIT: GET_BUTTONS answers 0 and SET_LED succeeds. The empty log and R242 are the spec's decision D13;
the configuration of `State.reset` is the model's choice, log 1, and no clause rests on it. -/
def Obligations.BlockResetZeroesTheState : Prop :=
  ∀ c : Config,
    (State.resetWith c).lastButtons = ⟨0x00, 0x00⟩ ∧
    frameBytes (State.resetWith c).lastLedFrame = [0x00, 0x00, 0x00, 0x00, 0x00, 0x00] ∧
    (State.resetWith c).commandPending = false ∧ (State.resetWith c).outLog = [] ∧
    (State.resetWith c).responses = [] ∧
    (c.legal = true → ∀ arg : Word,
      (∃ t, step (present (.command 0b01 arg true) (State.resetWith c)) = .next t ∧
        t.responses = [⟨.success, some 0x00000000⟩]) ∧
      ∃ t, step (present (.command 0b10 arg false) (State.resetWith c)) = .next t ∧
        t.responses = [⟨.success, none⟩])
end

