-- ==== Sys2Proof/Laws/Decode.lean ====
section
/-! SUPPORT. The decoder's facts, said once. -/

namespace Sys2Proof

/-- R8 in the form proofs use. -/
theorem Config.legal_iff (c : Config) :
    c.legal = true ↔ c.opButtonEvent ≠ c.opReset ∧ c.opButtonEvent ≠ c.opAck ∧ c.opReset ≠ c.opAck := by
  simp [Config.legal, and_assoc]

theorem decodePacket_buttonEvent (c : Config) (d1 d2 : Byte) (h : c.eventFallthrough = false) :
    decodePacket c c.opButtonEvent d1 d2 = .buttonEvent d1 d2 := by
  simp [decodePacket, h]

theorem decodePacket_buttonEventFallthrough (c : Config) (d1 d2 : Byte) (h : c.eventFallthrough = true) :
    decodePacket c c.opButtonEvent d1 d2 = .buttonEventFallthrough d1 d2 := by
  simp [decodePacket, h]

theorem decodePacket_reset {c : Config} (hl : c.legal = true) (d1 d2 : Byte) :
    decodePacket c c.opReset d1 d2 = .reset d1 d2 := by
  obtain ⟨h, -, -⟩ := c.legal_iff.1 hl
  simp [decodePacket, h.symm]

theorem decodePacket_ack {c : Config} (hl : c.legal = true) (d1 d2 : Byte) :
    decodePacket c c.opAck d1 d2 = .ack d1 d2 := by
  obtain ⟨-, h, h'⟩ := c.legal_iff.1 hl
  simp [decodePacket, h.symm, h'.symm]

theorem decodePacket_other {c : Config} {op : Byte} (h : op ≠ c.opButtonEvent) (h' : op ≠ c.opReset)
    (h'' : op ≠ c.opAck) (d1 d2 : Byte) : decodePacket c op d1 d2 = .other op d1 d2 := by
  simp [decodePacket, h, h', h'']

@[simp] theorem decodeCommand_init (arg : Word) (p : Bool) : decodeCommand 0b00 arg p = .init arg p := rfl
@[simp] theorem decodeCommand_getButtons (arg : Word) (p : Bool) : decodeCommand 0b01 arg p = .getButtons arg p := rfl
@[simp] theorem decodeCommand_setLed (arg : Word) (p : Bool) : decodeCommand 0b10 arg p = .setLed arg p := rfl
@[simp] theorem decodeCommand_reserved (arg : Word) (p : Bool) : decodeCommand 0b11 arg p = .reserved arg p := rfl

end Sys2Proof
end

