-- ==== Sys2Proof/Laws/State.lean ====
section
/-! SUPPORT. One lemma per field of State and named update, so that no proof unfolds a record update. -/

namespace Sys2Proof.Machine

variable (s : State) (bytes : List Byte) (r : Response) (d1 d2 : Byte) (f : LedFrame) (t : Transaction)
  (ts : List Transaction) (c : Config)

@[simp] theorem setPending_lastButtons : (setPending s).lastButtons = s.lastButtons := rfl
@[simp] theorem setPending_lastLedFrame : (setPending s).lastLedFrame = s.lastLedFrame := rfl
@[simp] theorem setPending_commandPending : (setPending s).commandPending = true := rfl
@[simp] theorem setPending_outLog : (setPending s).outLog = s.outLog := rfl
@[simp] theorem setPending_responses : (setPending s).responses = s.responses := rfl
@[simp] theorem setPending_config : (setPending s).config = s.config := rfl
@[simp] theorem setPending_inputs : (setPending s).inputs = s.inputs := rfl

@[simp] theorem clearPending_lastButtons : (clearPending s).lastButtons = s.lastButtons := rfl
@[simp] theorem clearPending_lastLedFrame : (clearPending s).lastLedFrame = s.lastLedFrame := rfl
@[simp] theorem clearPending_commandPending : (clearPending s).commandPending = false := rfl
@[simp] theorem clearPending_outLog : (clearPending s).outLog = s.outLog := rfl
@[simp] theorem clearPending_responses : (clearPending s).responses = s.responses := rfl
@[simp] theorem clearPending_config : (clearPending s).config = s.config := rfl
@[simp] theorem clearPending_inputs : (clearPending s).inputs = s.inputs := rfl

@[simp] theorem transmit_lastButtons : (transmit bytes s).lastButtons = s.lastButtons := rfl
@[simp] theorem transmit_lastLedFrame : (transmit bytes s).lastLedFrame = s.lastLedFrame := rfl
@[simp] theorem transmit_commandPending : (transmit bytes s).commandPending = s.commandPending := rfl
@[simp] theorem transmit_outLog : (transmit bytes s).outLog = s.outLog ++ [bytes] := rfl
@[simp] theorem transmit_responses : (transmit bytes s).responses = s.responses := rfl
@[simp] theorem transmit_config : (transmit bytes s).config = s.config := rfl
@[simp] theorem transmit_inputs : (transmit bytes s).inputs = s.inputs := rfl

@[simp] theorem respond_lastButtons : (respond r s).lastButtons = s.lastButtons := rfl
@[simp] theorem respond_lastLedFrame : (respond r s).lastLedFrame = s.lastLedFrame := rfl
@[simp] theorem respond_commandPending : (respond r s).commandPending = s.commandPending := rfl
@[simp] theorem respond_outLog : (respond r s).outLog = s.outLog := rfl
@[simp] theorem respond_responses : (respond r s).responses = s.responses ++ [r] := rfl
@[simp] theorem respond_config : (respond r s).config = s.config := rfl
@[simp] theorem respond_inputs : (respond r s).inputs = s.inputs := rfl

@[simp] theorem storeButtons_lastButtons : (storeButtons d1 d2 s).lastButtons = ⟨d1, d2⟩ := rfl
@[simp] theorem storeButtons_lastLedFrame : (storeButtons d1 d2 s).lastLedFrame = s.lastLedFrame := rfl
@[simp] theorem storeButtons_commandPending : (storeButtons d1 d2 s).commandPending = s.commandPending := rfl
@[simp] theorem storeButtons_outLog : (storeButtons d1 d2 s).outLog = s.outLog := rfl
@[simp] theorem storeButtons_responses : (storeButtons d1 d2 s).responses = s.responses := rfl
@[simp] theorem storeButtons_config : (storeButtons d1 d2 s).config = s.config := rfl
@[simp] theorem storeButtons_inputs : (storeButtons d1 d2 s).inputs = s.inputs := rfl

@[simp] theorem storeFrame_lastButtons : (storeFrame f s).lastButtons = s.lastButtons := rfl
@[simp] theorem storeFrame_lastLedFrame : (storeFrame f s).lastLedFrame = f := rfl
@[simp] theorem storeFrame_commandPending : (storeFrame f s).commandPending = s.commandPending := rfl
@[simp] theorem storeFrame_outLog : (storeFrame f s).outLog = s.outLog := rfl
@[simp] theorem storeFrame_responses : (storeFrame f s).responses = s.responses := rfl
@[simp] theorem storeFrame_config : (storeFrame f s).config = s.config := rfl
@[simp] theorem storeFrame_inputs : (storeFrame f s).inputs = s.inputs := rfl

@[simp] theorem present_lastButtons : (present t s).lastButtons = s.lastButtons := rfl
@[simp] theorem present_lastLedFrame : (present t s).lastLedFrame = s.lastLedFrame := rfl
@[simp] theorem present_commandPending : (present t s).commandPending = s.commandPending := rfl
@[simp] theorem present_outLog : (present t s).outLog = s.outLog := rfl
@[simp] theorem present_responses : (present t s).responses = s.responses := rfl
@[simp] theorem present_config : (present t s).config = s.config := rfl
@[simp] theorem present_inputs : (present t s).inputs = t :: s.inputs := rfl

@[simp] theorem presentAll_lastButtons : (presentAll ts s).lastButtons = s.lastButtons := rfl
@[simp] theorem presentAll_lastLedFrame : (presentAll ts s).lastLedFrame = s.lastLedFrame := rfl
@[simp] theorem presentAll_commandPending : (presentAll ts s).commandPending = s.commandPending := rfl
@[simp] theorem presentAll_outLog : (presentAll ts s).outLog = s.outLog := rfl
@[simp] theorem presentAll_responses : (presentAll ts s).responses = s.responses := rfl
@[simp] theorem presentAll_config : (presentAll ts s).config = s.config := rfl
@[simp] theorem presentAll_inputs : (presentAll ts s).inputs = ts := rfl

@[simp] theorem resetWith_lastButtons : (State.resetWith c).lastButtons = resetButtons := rfl
@[simp] theorem resetWith_lastLedFrame : (State.resetWith c).lastLedFrame = resetFrame := rfl
@[simp] theorem resetWith_commandPending : (State.resetWith c).commandPending = false := rfl
@[simp] theorem resetWith_outLog : (State.resetWith c).outLog = [] := rfl
@[simp] theorem resetWith_responses : (State.resetWith c).responses = [] := rfl
@[simp] theorem resetWith_config : (State.resetWith c).config = c := rfl
@[simp] theorem resetWith_inputs : (State.resetWith c).inputs = [] := rfl

end Sys2Proof.Machine
end

