-- ==== Sys2Proof/Laws/Ops.lean ====
section
/-! SUPPORT. What each shared operation can do, said once. -/

namespace Sys2Proof.Machine

/-! ### The Reset action (R103) -/

@[simp] theorem resetAction_lastButtons (s : State) : (resetAction s).lastButtons = s.lastButtons := rfl
@[simp] theorem resetAction_lastLedFrame (s : State) : (resetAction s).lastLedFrame = s.lastLedFrame := rfl
@[simp] theorem resetAction_commandPending (s : State) : (resetAction s).commandPending = false := rfl
@[simp] theorem resetAction_outLog (s : State) :
    (resetAction s).outLog =
      s.outLog ++ [initSeq s.config, frameBytes s.lastLedFrame, frameBytes s.lastLedFrame] := by
  simp [resetAction]
@[simp] theorem resetAction_responses (s : State) : (resetAction s).responses = s.responses := rfl
@[simp] theorem resetAction_config (s : State) : (resetAction s).config = s.config := rfl
@[simp] theorem resetAction_inputs (s : State) : (resetAction s).inputs = s.inputs := rfl

/-! ### Completing and raising (R11) -/

theorem complete_next {status : Status} {result : Option Word} {s t : State}
    (h : complete status result s = .next t) : t = respond ⟨status, result⟩ s := by
  simpa [complete, eq_comm] using h

theorem raiseStatus_next {status : Status} {s t : State} (h : raiseStatus status s = .next t) :
    t = respond ⟨status, none⟩ s :=
  complete_next h

/-! ### The AckGate (R150) -/

theorem trySetLed_pending {f : LedFrame} {s : State} (h : s.commandPending = true) :
    trySetLed f s = raiseStatus .busy s := by
  simp [trySetLed, h]

theorem trySetLed_free {f : LedFrame} {s : State} (h : s.commandPending = false) :
    trySetLed f s = .next (respond ⟨.success, none⟩
      { s with commandPending := true, lastLedFrame := f, outLog := s.outLog ++ [frameBytes f, frameBytes f] }) := by
  simp [trySetLed, h, complete, transmit, storeFrame, setPending]

/-- Everything TRY_SET_LED can do. -/
theorem trySetLed_cases {f : LedFrame} {s t : State} (h : trySetLed f s = .next t) :
    (s.commandPending = true ∧ t = respond ⟨.busy, none⟩ s) ∨
    (s.commandPending = false ∧ t = respond ⟨.success, none⟩
      { s with commandPending := true, lastLedFrame := f, outLog := s.outLog ++ [frameBytes f, frameBytes f] }) := by
  cases hp : s.commandPending with
  | true => exact .inl ⟨rfl, raiseStatus_next (trySetLed_pending hp ▸ h)⟩
  | false =>
    rw [trySetLed_free hp] at h
    exact .inr ⟨rfl, by simpa [eq_comm] using h⟩

/-! ### Every meaning answers a next state: there is no trap (R200) and nothing waits (R106, R164) -/

/-- The state an instruction leads to. -/
def execState (i : Instr) (s : State) : State :=
  match exec i s with
  | .next t => t
  | .fault _ => s
  | .refused _ => s

theorem execState_of_exec {i : Instr} {s t : State} (h : exec i s = .next t) : execState i s = t := by
  simp [execState, h]

theorem trySetLed_next (f : LedFrame) (s : State) : ∃ t, trySetLed f s = .next t := by
  cases hp : s.commandPending with
  | true => exact ⟨_, trySetLed_pending hp⟩
  | false => exact ⟨_, trySetLed_free hp⟩

theorem exec_eq_next (i : Instr) (s : State) : exec i s = .next (execState i s) := by
  suffices h : ∃ t, exec i s = .next t by
    obtain ⟨t, h⟩ := h
    rw [h, execState_of_exec h]
  cases i with
  | buttonEvent d1 d2 => exact ⟨_, rfl⟩
  | buttonEventFallthrough d1 d2 => exact ⟨_, rfl⟩
  | reset d1 d2 => exact ⟨_, rfl⟩
  | ack d1 d2 => exact ⟨_, rfl⟩
  | other op d1 d2 => exact ⟨_, rfl⟩
  | init arg slot => exact ⟨_, rfl⟩
  | getButtons arg slot => cases slot <;> exact ⟨_, rfl⟩
  | setLed arg slot => exact trySetLed_next _ s
  | reserved arg slot => exact ⟨_, rfl⟩
  | outInitSeq => exact ⟨_, rfl⟩
  | outLedFrame a b c d => exact ⟨_, rfl⟩

/-! The state after each instruction, in terms of the shared operations. -/

theorem execState_buttonEvent (d1 d2 : Byte) (s : State) :
    execState (.buttonEvent d1 d2) s = storeButtons d1 d2 s := rfl
theorem execState_buttonEventFallthrough (d1 d2 : Byte) (s : State) :
    execState (.buttonEventFallthrough d1 d2) s = resetAction (storeButtons d1 d2 s) := rfl
theorem execState_reset (d1 d2 : Byte) (s : State) : execState (.reset d1 d2) s = resetAction s := rfl
theorem execState_ack (d1 d2 : Byte) (s : State) : execState (.ack d1 d2) s = clearPending s := rfl
theorem execState_other (op d1 d2 : Byte) (s : State) : execState (.other op d1 d2) s = s := rfl
theorem execState_init (arg : Word) (p : Bool) (s : State) :
    execState (.init arg p) s = respond ⟨.success, none⟩ (clearPending (transmit (initSeq s.config) s)) := rfl
theorem execState_getButtons_slot (arg : Word) (s : State) :
    execState (.getButtons arg true) s =
      respond ⟨.success, some (remap s.lastButtons.b0 s.lastButtons.b1)⟩ s := rfl
theorem execState_getButtons_null (arg : Word) (s : State) :
    execState (.getButtons arg false) s = respond ⟨.invalidArgument, none⟩ s := rfl
theorem execState_setLed_pending (arg : Word) (p : Bool) {s : State} (h : s.commandPending = true) :
    execState (.setLed arg p) s = respond ⟨.busy, none⟩ s :=
  execState_of_exec (trySetLed_pending h)
theorem execState_setLed_free (arg : Word) (p : Bool) {s : State} (h : s.commandPending = false) :
    execState (.setLed arg p) s = respond ⟨.success, none⟩
      { s with
        commandPending := true
        lastLedFrame := ledEncode s.config arg
        outLog := s.outLog ++ [frameBytes (ledEncode s.config arg), frameBytes (ledEncode s.config arg)] } :=
  execState_of_exec (trySetLed_free h)
theorem execState_reserved (arg : Word) (p : Bool) (s : State) :
    execState (.reserved arg p) s = respond ⟨.invalidArgument, none⟩ s := rfl
theorem execState_outInitSeq (s : State) : execState .outInitSeq s = transmit (initSeq s.config) s := rfl
theorem execState_outLedFrame (a b c d : Byte) (s : State) :
    execState (.outLedFrame a b c d) s = transmit (frameBytes (ledFrame s.config a b c d)) s := rfl

/-- No instruction writes the configuration (R27). -/
@[simp] theorem execState_config (i : Instr) (s : State) : (execState i s).config = s.config := by
  cases i with
  | getButtons arg slot => cases slot <;> rfl
  | setLed arg slot =>
    cases hp : s.commandPending with
    | true => rw [execState_setLed_pending arg slot hp]; rfl
    | false => rw [execState_setLed_free arg slot hp]; rfl
  | _ => rfl

/-- No instruction touches the environment's transactions (R107). -/
@[simp] theorem execState_inputs (i : Instr) (s : State) : (execState i s).inputs = s.inputs := by
  cases i with
  | getButtons arg slot => cases slot <;> rfl
  | setLed arg slot =>
    cases hp : s.commandPending with
    | true => rw [execState_setLed_pending arg slot hp]; rfl
    | false => rw [execState_setLed_free arg slot hp]; rfl
  | _ => rfl

end Sys2Proof.Machine
end

