-- ==== Sys2Proof/Laws/PerInstr.lean ====
section
/-! SUPPORT. Statements about every instruction as syntax, one lemma per constructor. Family `Format`: the unit an
instruction is encoded as has the format spec/opcode_table.json gives its row (30_encoding.md R76). -/

namespace Sys2Proof.Laws.Format

/-- The width of a unit in the opcode table's patterns (R76): 24-bit packets, 35-bit commands, 8 bits for each outbound
byte. -/
def width : WireUnit → Nat
  | .inbound (.packet _ _ _) => 24
  | .inbound (.command _ _ _) => 35
  | .outbound bytes => 8 * bytes.length

/-- The width of an instruction's row in spec/opcode_table.json. -/
def rowWidth : Instr → Nat
  | .buttonEvent _ _ => 24
  | .buttonEventFallthrough _ _ => 24
  | .reset _ _ => 24
  | .ack _ _ => 24
  | .other _ _ _ => 24
  | .init _ _ => 35
  | .getButtons _ _ => 35
  | .setLed _ _ => 35
  | .reserved _ _ => 35
  | .outInitSeq => 16
  | .outLedFrame _ _ _ _ => 48

def Statement (i : Instr) : Prop := ∀ c : Config, width (encode c i) = rowWidth i

theorem buttonEvent (data1 data2 : Byte) : Statement (.buttonEvent data1 data2) := fun _ => rfl
theorem buttonEventFallthrough (data1 data2 : Byte) : Statement (.buttonEventFallthrough data1 data2) := fun _ => rfl
theorem reset (data1 data2 : Byte) : Statement (.reset data1 data2) := fun _ => rfl
theorem ack (data1 data2 : Byte) : Statement (.ack data1 data2) := fun _ => rfl
theorem other (op data1 data2 : Byte) : Statement (.other op data1 data2) := fun _ => rfl
theorem init (arg : Word) (slotPresent : Bool) : Statement (.init arg slotPresent) := fun _ => rfl
theorem getButtons (arg : Word) (slotPresent : Bool) : Statement (.getButtons arg slotPresent) := fun _ => rfl
theorem setLed (arg : Word) (slotPresent : Bool) : Statement (.setLed arg slotPresent) := fun _ => rfl
theorem reserved (arg : Word) (slotPresent : Bool) : Statement (.reserved arg slotPresent) := fun _ => rfl
theorem outInitSeq : Statement .outInitSeq := fun _ => rfl
theorem outLedFrame (seg0 seg1 seg2 seg3 : Byte) : Statement (.outLedFrame seg0 seg1 seg2 seg3) := fun _ => rfl

end Sys2Proof.Laws.Format
end

