-- ==== Sys2Proof/Laws/Step.lean ====
section
/-! SUPPORT. What a step can do, said once, and how runs unfold. -/

namespace Sys2Proof.Machine

@[simp] theorem takeTransaction_nil {s : State} (h : s.inputs = []) : takeTransaction s = none := by
  simp [takeTransaction, h]

theorem takeTransaction_cons {s : State} {t : Transaction} {rest : List Transaction} (h : s.inputs = t :: rest) :
    takeTransaction s = some (t, presentAll rest s) := by
  simp [takeTransaction, h, presentAll]

/-- The state a presented transaction leads to. -/
def transactionState (t : Transaction) (s : State) : State := execState (decodeTransaction s.config t) s

/-- Everything a step can do: refuse the configuration, idle, or run the next transaction to completion. -/
theorem step_cases (s : State) :
    (s.config.legal = false ∧ step s = .refused .illegalConfiguration) ∨
    (s.config.legal = true ∧ s.inputs = [] ∧ step s = .next s) ∨
    (s.config.legal = true ∧ ∃ t rest, s.inputs = t :: rest ∧
      step s = .next (transactionState t (presentAll rest s))) := by
  cases hl : s.config.legal with
  | false => exact .inl ⟨rfl, by simp [step, configAccepted, hl]⟩
  | true =>
    cases hi : s.inputs with
    | nil => exact .inr (.inl ⟨rfl, rfl, by simp [step, configAccepted, hl, takeTransaction_nil hi, idle]⟩)
    | cons t rest =>
      refine .inr (.inr ⟨rfl, t, rest, rfl, ?_⟩)
      simp [step, configAccepted, hl, takeTransaction_cons hi, exec_eq_next, instructionOf, transactionState]

/-- A step that answers a next state: idling, or one transaction. -/
theorem step_next_cases {s s' : State} (h : step s = .next s') :
    s.config.legal = true ∧
      ((s.inputs = [] ∧ s' = s) ∨
        ∃ t rest, s.inputs = t :: rest ∧ s' = transactionState t (presentAll rest s)) := by
  obtain ⟨_, h1⟩ | ⟨hl, hi, h1⟩ | ⟨hl, t, rest, hi, h1⟩ := step_cases s
  · simp [h1] at h
  · exact ⟨hl, .inl ⟨hi, by simpa [h1, eq_comm] using h⟩⟩
  · exact ⟨hl, .inr ⟨t, rest, hi, by simpa [h1, eq_comm] using h⟩⟩

/-- The step of a presented transaction. -/
theorem step_present {s : State} (hl : s.config.legal = true) (t : Transaction) :
    step (present t s) = .next (transactionState t s) := by
  obtain ⟨h, _⟩ | ⟨_, h, _⟩ | ⟨_, u, rest, hi, h⟩ := step_cases (present t s)
  · simp [hl] at h
  · simp at h
  · simp only [present_inputs, List.cons.injEq] at hi
    rw [h, ← hi.1, ← hi.2]
    rfl

/-- The state a sequence of transactions leads to. -/
def afterAll : List Transaction → State → State
  | [], s => s
  | t :: ts, s => afterAll ts (transactionState t s)

@[simp] theorem transactionState_config (t : Transaction) (s : State) : (transactionState t s).config = s.config := by
  simp [transactionState]

@[simp] theorem transactionState_inputs (t : Transaction) (s : State) : (transactionState t s).inputs = s.inputs := by
  simp [transactionState]

/-- What a transaction does depends only on the state without the transactions still to come. -/
theorem execState_presentAll (i : Instr) (us : List Transaction) (s : State) :
    execState i (presentAll us s) = presentAll us (execState i s) := by
  cases i with
  | getButtons arg slot => cases slot <;> rfl
  | setLed arg slot =>
    cases hp : s.commandPending with
    | true => rw [execState_setLed_pending arg slot hp, execState_setLed_pending arg slot (by exact hp)]; rfl
    | false => rw [execState_setLed_free arg slot hp, execState_setLed_free arg slot (by exact hp)]; rfl
  | _ => rfl

theorem transactionState_presentAll (t : Transaction) (us : List Transaction) (s : State) :
    transactionState t (presentAll us s) = presentAll us (transactionState t s) := by
  simp [transactionState, execState_presentAll]

@[simp] theorem afterAll_config (ts : List Transaction) (s : State) : (afterAll ts s).config = s.config := by
  induction ts generalizing s with
  | nil => rfl
  | cons t ts ih => simp [afterAll, ih]

theorem afterAll_append (ts us : List Transaction) (s : State) :
    afterAll (ts ++ us) s = afterAll us (afterAll ts s) := by
  induction ts generalizing s with
  | nil => rfl
  | cons t ts ih => exact ih _

/-- One step of a run. -/
theorem run_succ (M : Host.Core) {s s' : M.State} (h : M.step s = .next s') (k : Nat) :
    M.run (k + 1) s = M.run k s' := by
  rw [Host.Core.run.eq_def]
  simp only [h]

theorem run_refused (M : Host.Core) {s : M.State} {r : M.Refusal} (h : M.step s = .refused r) (k : Nat) :
    M.run (k + 1) s = .refused r := by
  rw [Host.Core.run.eq_def]
  simp only [h]

/-- A run of an illegal instance is refused at its first transaction (R8). -/
theorem runAll_illegal {s : State} (hl : s.config.legal = false) (t : Transaction) (ts : List Transaction) :
    runAll (t :: ts) s = .refused .illegalConfiguration := by
  have h : step (presentAll (t :: ts) s) = .refused .illegalConfiguration := by
    simp [step, configAccepted, hl]
  exact run_refused Sys2Proof.core h ts.length

/-- Every run of a legal instance completes, in the state its transactions lead to, with none left over. -/
theorem runAll_eq {s : State} (hl : s.config.legal = true) (ts : List Transaction) :
    runAll ts s = .next (presentAll [] (afterAll ts s)) := by
  induction ts generalizing s with
  | nil => rfl
  | cons t ts ih =>
    have hs : step (presentAll (t :: ts) s) = .next (presentAll ts (transactionState t s)) := by
      have h := step_present (s := presentAll ts s) hl t
      rwa [transactionState_presentAll] at h
    have hr : runAll (t :: ts) s = runAll ts (transactionState t s) := run_succ Sys2Proof.core hs ts.length
    rw [hr, ih (by simpa using hl)]
    rfl

end Sys2Proof.Machine
end

