-- ==== Sys2Proof/Tests/Slice0.lean ====
section
/-! SUPPORT. Small tests, each expected value taken from the spec's own vectors (95_test_vectors.md, named in the
comments) or written out from its encodings; the smoke test of WellFormed; and for every statement with hypotheses a
concrete state and operands that meet them. -/

namespace Sys2Proof.Machine

/-! ### Helpers -/

/-- The next state of an outcome, so that decide can compare it. -/
def stateOf : Result → Option State
  | .next s => some s
  | .fault _ => none
  | .refused _ => none

/-- A configuration of the tests' own, with fallthrough as given. -/
def testConfig (fallthrough : Bool) : Config := ⟨0x11, 0x22, 0x33, 0x44, 0x55, 0x66, fallthrough⟩

/-- Frame E1 of table T3 for `testConfig`. -/
def frameE1 : LedFrame := ⟨0x44, 0x0F, 0x2E, 0x8F, 0xCB, 0x06⟩

/-- A state that holds frame E1, with the flag as given. -/
def holdsE1 (fallthrough pending : Bool) : State :=
  { State.resetWith (testConfig fallthrough) with
    lastLedFrame := frameE1, commandPending := pending, outLog := [frameBytes frameE1, frameBytes frameE1] }

/-- An instance whose Reset and Ack opcodes are equal. -/
def clashingConfig : Config := ⟨0x11, 0x22, 0x22, 0x44, 0x55, 0x66, false⟩

/-! ### WellFormed: an ill-formed term for each check -/

theorem test_wf_refuses_buttonEvent_with_fallthrough :
    (Instr.buttonEvent 1 2).wf (testConfig true) = false := by decide
theorem test_wf_refuses_fallthrough_without_parameter :
    (Instr.buttonEventFallthrough 1 2).wf (testConfig false) = false := by decide
theorem test_wf_refuses_other_with_inbound_opcode :
    (Instr.other 0x11 0 0).wf (testConfig false) = false ∧ (Instr.other 0x22 0 0).wf (testConfig false) = false ∧
      (Instr.other 0x33 0 0).wf (testConfig false) = false := by decide
/-- 0x01 is no SEG_LUT entry, no entry plus 16, and not 0x00 (table T2). -/
theorem test_wf_refuses_bad_segment_byte :
    (Instr.outLedFrame 0x01 0x00 0x00 0x00).wf (testConfig false) = false ∧
      (Instr.outLedFrame 0x00 0x01 0x00 0x00).wf (testConfig false) = false ∧
      (Instr.outLedFrame 0x00 0x00 0x01 0x00).wf (testConfig false) = false ∧
      (Instr.outLedFrame 0x00 0x00 0x00 0x01).wf (testConfig false) = false := by decide
theorem test_wf_accepts_segment_bytes :
    (Instr.outLedFrame 0xE7 0xF7 0x00 0xF8).wf (testConfig false) = true := by decide

/-! ### Decoding: one word of each row, written out from R60 to R70 (0x11 EVT, 0x22 RST, 0x33 ACK) -/

theorem test_decode_buttonEvent :
    decodeTransaction (testConfig false) (.packet 0x11 0x05 0x0A) = .buttonEvent 0x05 0x0A := by decide
theorem test_decode_buttonEventFallthrough :
    decodeTransaction (testConfig true) (.packet 0x11 0x05 0x0A) = .buttonEventFallthrough 0x05 0x0A := by decide
theorem test_decode_reset : decodeTransaction (testConfig true) (.packet 0x22 0xAB 0xCD) = .reset 0xAB 0xCD := by decide
theorem test_decode_ack : decodeTransaction (testConfig false) (.packet 0x33 0x12 0x34) = .ack 0x12 0x34 := by decide
/-- K10: an outbound opcode is not decoded. -/
theorem test_decode_other :
    decodeTransaction (testConfig false) (.packet 0x44 0x0F 0x00) = .other 0x44 0x0F 0x00 := by decide
theorem test_decode_init : decodeTransaction (testConfig false) (.command 0b00 7 true) = .init 7 true := by decide
theorem test_decode_getButtons :
    decodeTransaction (testConfig false) (.command 0b01 0 true) = .getButtons 0 true := by decide
theorem test_decode_setLed :
    decodeTransaction (testConfig false) (.command 0b10 0x000F1234 false) = .setLed 0x000F1234 false := by decide
theorem test_decode_reserved : decodeTransaction (testConfig false) (.command 0b11 0 false) = .reserved 0 false := by decide
/-- An Except has no decidable equality in core, so the readers' tests compare what they accept or how they reject. -/
theorem test_decode_outInitSeq : decode (testConfig false) (.outbound [0x55, 0x66]) = .ok .outInitSeq := rfl
theorem test_decode_outLedFrame :
    decode (testConfig false) (.outbound [0x44, 0x0F, 0x2E, 0x8F, 0xCB, 0x06]) =
      .ok (.outLedFrame 0x2E 0x8F 0xCB 0x06) := rfl
theorem test_reject_outbound_length : decode (testConfig false) (.outbound [0x55]) = .error .outboundLength := rfl
theorem test_reject_swapped_initSeq : decode (testConfig false) (.outbound [0x66, 0x55]) = .error .notInitSeq := rfl
/-- The replayed reset frame is six bytes but no OUT_LED_FRAME (R248). -/
theorem test_reject_zero_frame : decode (testConfig false) (.outbound [0, 0, 0, 0, 0, 0]) = .error .notFrameHeader := rfl
theorem test_reject_segment_byte :
    decode (testConfig false) (.outbound [0x44, 0x0F, 0x01, 0, 0, 0]) = .error .notSegmentByte := rfl
theorem test_reject_packet_length : packetOfBytes [0x11, 0x05] = .error .packetLength := rfl
theorem test_reject_table_width : unitOfTableWord 32 0 = .error .tableWidth := rfl

/-- The pattern `10` then 0x000F1234 in 32 bits then `0`, as one number (opcode_table.json, SET_LED). -/
theorem test_tableWord_setLed :
    decodeTableWord 40 0b10_00000000000011110001001000110100_0 = some (.setLed 0x000F1234 false) := by decide
/-- A packet's opcode stands in the first eight characters of its pattern; 0x03 is this reset's Ack (log 1). -/
theorem test_tableWord_ack : decodeTableWord 24 0x031234 = some (.ack 0x12 0x34) := by decide

/-! ### Packets -/

/-- K2: the flag and the frame stay. -/
theorem test_buttonEvent_K2 :
    stateOf (exec (.buttonEvent 0xFF 0x00) (holdsE1 false true)) =
      some { holdsE1 false true with lastButtons := ⟨0xFF, 0x00⟩ } := by decide
/-- K3: stores, transmits IS, F, F, and clears the flag. -/
theorem test_buttonEventFallthrough_K3 :
    (stateOf (exec (.buttonEventFallthrough 0x01 0x00) (holdsE1 true true))).map
        (fun t => (t.lastButtons, t.commandPending, t.outLog.drop 2)) =
      some (⟨0x01, 0x00⟩, false, [[0x55, 0x66], frameBytes frameE1, frameBytes frameE1]) := by decide
/-- K4. -/
theorem test_reset_K4 :
    (stateOf (exec (.reset 0x00 0x00) (holdsE1 false true))).map (fun t => (t.commandPending, t.outLog.drop 2)) =
      some (false, [[0x55, 0x66], frameBytes frameE1, frameBytes frameE1]) := by decide
/-- K6: from reset the six zero bytes are replayed. -/
theorem test_reset_K6 :
    (stateOf (exec (.reset 0x00 0x00) (State.resetWith (testConfig false)))).map State.outLog =
      some [[0x55, 0x66], [0, 0, 0, 0, 0, 0], [0, 0, 0, 0, 0, 0]] := by decide
/-- K7. -/
theorem test_ack_K7 : stateOf (exec (.ack 0x00 0x00) (holdsE1 false true)) = some (holdsE1 false false) := by decide
/-- K10. -/
theorem test_other_K10 :
    stateOf (step (present (.packet 0x44 0x0F 0x00) (holdsE1 false true))) = some (holdsE1 false true) := by decide

/-! ### Host commands -/

/-- H2. -/
theorem test_init_H2 :
    (stateOf (exec (.init 0 false) (holdsE1 false true))).map
        (fun t => (t.lastLedFrame, t.commandPending, t.outLog.drop 2, t.responses)) =
      some (frameE1, false, [[0x55, 0x66]], [⟨.success, none⟩]) := by decide
/-- H3. -/
theorem test_getButtons_H3 :
    (stateOf (exec (.getButtons 0 false) (State.resetWith (testConfig false)))).map State.responses =
      some [⟨.invalidArgument, none⟩] := by decide
/-- H6. -/
theorem test_getButtons_H6 :
    (stateOf (exec (.getButtons 0 true) { holdsE1 false true with lastButtons := ⟨0x05, 0x0A⟩ })).map State.responses =
      some [⟨.success, some 0x000000C5⟩] := by decide
/-- G1. -/
theorem test_setLed_G1 :
    stateOf (exec (.setLed 0x000F1234 false) (State.resetWith (testConfig false))) =
      some { holdsE1 false true with responses := [⟨.success, none⟩] } := by decide
/-- G2. -/
theorem test_setLed_G2 :
    stateOf (exec (.setLed 0x0A0F5678 false) (holdsE1 false true)) =
      some { holdsE1 false true with responses := [⟨.busy, none⟩] } := by decide
/-- H7. -/
theorem test_reserved_H7 :
    stateOf (exec (.reserved 0 false) (holdsE1 false true)) =
      some { holdsE1 false true with responses := [⟨.invalidArgument, none⟩] } := by decide
/-- R63. -/
theorem test_outInitSeq :
    (stateOf (exec .outInitSeq (State.resetWith (testConfig false)))).map State.outLog = some [[0x55, 0x66]] := by decide
/-- R64. -/
theorem test_outLedFrame :
    (stateOf (exec (.outLedFrame 0x2E 0x8F 0xCB 0x06) (State.resetWith (testConfig false)))).map State.outLog =
      some [[0x44, 0x0F, 0x2E, 0x8F, 0xCB, 0x06]] := by decide

/-! ### Combinational functions -/

/-- Table T1, the rows that tell the four bits of byte 1 apart, and ignored upper nibbles. -/
theorem test_remap_T1 :
    remap 0x00 0x01 = 0x10 ∧ remap 0x00 0x02 = 0x40 ∧ remap 0x00 0x04 = 0x20 ∧ remap 0x00 0x08 = 0x80 ∧
      remap 0x0A 0x05 = 0x3A ∧ remap 0xF3 0xF6 = 0x63 ∧ remap 0xFF 0xFF = 0xFF := by decide
/-- Table T2, digits 0 to 15 with the position enabled, without and with the decimal point. -/
theorem test_segment_T2 :
    (List.ofFn fun d : Fin 16 => segmentByte ⟨d⟩ true false) =
        [0xE7, 0x06, 0xCB, 0x8F, 0x2E, 0xAD, 0xED, 0x86, 0xEF, 0xAE, 0xEE, 0x6D, 0xE1, 0x4F, 0xE9, 0xE8] ∧
      (List.ofFn fun d : Fin 16 => segmentByte ⟨d⟩ true true) =
        [0xF7, 0x16, 0xDB, 0x9F, 0x3E, 0xBD, 0xFD, 0x96, 0xFF, 0xBE, 0xFE, 0x7D, 0xF1, 0x5F, 0xF9, 0xF8] := by decide
/-- Table T3, E3, E4, E9 and E12. -/
theorem test_ledEncode_T3 :
    frameBytes (ledEncode (testConfig false) 0x0F00FFFF) = [0x44, 0x0F, 0x00, 0x00, 0x00, 0x00] ∧
      frameBytes (ledEncode (testConfig false) 0x0005ABCD) = [0x44, 0x0F, 0x4F, 0x00, 0x6D, 0x00] ∧
      frameBytes (ledEncode (testConfig false) 0x0A0F5678) = [0x44, 0x0F, 0xEF, 0x96, 0xED, 0xBD] ∧
      frameBytes (ledEncode (testConfig false) 0xFFFFFFFF) = [0x44, 0x0F, 0xF8, 0xF8, 0xF8, 0xF8] := by decide

/-! ### The step and the host's word -/

theorem test_step_refuses_clashing_opcodes :
    step (present (.packet 0x11 0 0) (State.resetWith clashingConfig)) = .refused .illegalConfiguration := rfl
theorem test_step_idles : stateOf (step State.reset) = some State.reset := by decide
/-- H4 through the host's word: GET_BUTTONS with a slot from reset answers 0. -/
theorem test_withFetchWord_runs :
    (stateOf (step (State.reset.withFetchWord 40 0b01_00000000000000000000000000000000_1))).map State.responses =
      some [⟨.success, some 0x00000000⟩] := by decide

/-! ### Witnesses: states and operands that meet the hypotheses of the statements

Most hypotheses are that the configuration is legal, with a value of the flag or of `P_EVENT_FALLTHROUGH`. -/

/-- StepRunsTheDecodedTransaction, its three cases. -/
theorem witness_step_cases :
    (State.resetWith (testConfig false)).config.legal = true ∧
      (present (.command 0b00 0 false) (State.resetWith (testConfig false))).inputs =
        .command 0b00 0 false :: [] ∧
      (State.resetWith (testConfig false)).inputs = [] ∧
      (State.resetWith clashingConfig).config.legal = false := by decide

/-- EncodedInstructionDecodesBack: every row, with both values of the parameter. -/
theorem witness_wellformed_instructions :
    (testConfig false).legal = true ∧ (testConfig true).legal = true ∧
      (Instr.buttonEvent 0xFF 0x00).wf (testConfig false) = true ∧
      (Instr.buttonEventFallthrough 0xFF 0x00).wf (testConfig true) = true ∧
      (Instr.reset 1 2).wf (testConfig false) = true ∧ (Instr.ack 1 2).wf (testConfig false) = true ∧
      (Instr.other 0x00 1 2).wf (testConfig false) = true ∧ (Instr.init 1 true).wf (testConfig false) = true ∧
      (Instr.getButtons 1 true).wf (testConfig false) = true ∧ (Instr.setLed 1 true).wf (testConfig false) = true ∧
      (Instr.reserved 1 true).wf (testConfig false) = true ∧ Instr.outInitSeq.wf (testConfig false) = true ∧
      (Instr.outLedFrame 0xE7 0x00 0xF8 0x16).wf (testConfig false) = true := by decide

/-- DecodedUnitEncodesBack, first clause; witness_wellformed_instructions and the next theorem meet the second's. -/
theorem witness_decoded_unit :
    decode (testConfig false) (.inbound (.packet 0xFF 0 0)) = .ok (.other 0xFF 0 0) ∧
      decode (testConfig false) (.outbound [0x55, 0x66]) = .ok .outInitSeq := ⟨rfl, rfl⟩

/-- DecodedUnitEncodesBack, second clause: two well-formed spellings of one command with one unit. -/
theorem witness_shared_unit :
    (testConfig false).legal = true ∧ (Instr.setLed 0x000F1234 false).wf (testConfig false) = true ∧
      (Instr.setLed (0x000F0000 + 0x1234) false).wf (testConfig false) = true ∧
      encode (testConfig false) (.setLed 0x000F1234 false) =
        encode (testConfig false) (.setLed (0x000F0000 + 0x1234) false) := by decide

/-- PacketOpcodeMapIsTotal and OtherPacketIsIgnored: an opcode for each clause, the last the outbound one. -/
theorem witness_packet_opcodes :
    (testConfig false).legal = true ∧ (0x11 : Byte) = (testConfig false).opButtonEvent ∧
      (0x22 : Byte) = (testConfig false).opReset ∧ (0x33 : Byte) = (testConfig false).opAck ∧
      (testConfig false).opLedSet ≠ (testConfig false).opButtonEvent ∧
      (testConfig false).opLedSet ≠ (testConfig false).opReset ∧
      (testConfig false).opLedSet ≠ (testConfig false).opAck := by decide

/-- The statements about a legal instance whose flag is set, or clear, and those about either value of
`P_EVENT_FALLTHROUGH`: ButtonEventStoresTheDataBytes, ButtonEventFallthroughAlsoResets, ResetPacketReplaysTheLastFrame,
AckClearsThePendingFlag, PacketsCompleteWithoutResponse, ResetPacketsKeepButtonsAndFrame, InitTransmitsAndClears,
GetButtonsAnswersTheRemappedSnapshot, SetLedIsGuardedByPending, ReservedCommandHasNoEffect, ErrorStatusesHaveNoEffect,
OneResponseForEachCommand, ExtraAckOpensTheGate, BothSerializationOrdersRun, BlockResetZeroesTheState. -/
theorem witness_legal_states :
    ((holdsE1 false true).config.legal = true ∧ (holdsE1 false true).commandPending = true ∧
      (holdsE1 false true).config.eventFallthrough = false) ∧
    ((holdsE1 true false).config.legal = true ∧ (holdsE1 true false).commandPending = false ∧
      (holdsE1 true false).config.eventFallthrough = true) ∧
    (testConfig false).legal = true := by
  decide

/-- ButtonEventFallthroughAlsoResets and ResetPacketReplaysTheLastFrame: the state `t` their hypothesis describes. -/
theorem witness_reset_action_state :
    ∃ t, t = { holdsE1 true true with
      lastButtons := ⟨1, 2⟩
      commandPending := false
      outLog := (holdsE1 true true).outLog ++ [[0x55, 0x66], frameBytes frameE1, frameBytes frameE1] } := ⟨_, rfl⟩

/-- FallthroughStreamLoadsTheLink: two ButtonEvents. -/
theorem witness_fallthrough_stream :
    (holdsE1 true true).config.legal = true ∧ (holdsE1 true true).config.eventFallthrough = true ∧
      ∀ u ∈ [Transaction.packet 0x11 1 8, Transaction.packet 0x11 0 0],
        isButtonEvent (holdsE1 true true).config u = true := by decide

/-- RemapIsABijectionOnLowNibbles: the greatest word below 0x100, and 0xC5 with its own bytes. -/
theorem witness_remap_inverse :
    (0x000000FF : Word).toNat < 0x100 ∧ (0x000000C5 : Word).toNat < 0x100 ∧
      (∀ i, i < 4 → (0x05 : Byte).getLsbD i = (0x000000C5 : Word).getLsbD i) ∧
      (0x0A : Byte).getLsbD 0 = (0x000000C5 : Word).getLsbD 4 ∧
      (0x0A : Byte).getLsbD 1 = (0x000000C5 : Word).getLsbD 6 ∧
      (0x0A : Byte).getLsbD 2 = (0x000000C5 : Word).getLsbD 5 ∧
      (0x0A : Byte).getLsbD 3 = (0x000000C5 : Word).getLsbD 7 := by decide

/-- EncodeBuildsTheFrame: the four segment bytes of frame E1. -/
theorem witness_segments :
    ∃ seg : Fin 4 → Byte, (∀ i : Fin 4, seg i =
      if (0x000F1234 : Word).getLsbD (16 + i.val) then
        [0xE7, 0x06, 0xCB, 0x8F, 0x2E, 0xAD, 0xED, 0x86, 0xEF, 0xAE, 0xEE, 0x6D, 0xE1, 0x4F, 0xE9, 0xE8].getD
            (((0x000F1234 : Word).extractLsb' 0 16 >>> (4 * i.val)) &&& 0x000F).toNat 0x00 +
          (if (0x000F1234 : Word).getLsbD (24 + i.val) then 16 else 0)
      else 0x00) ∧ seg 0 = 0x2E ∧ seg 3 = 0x06 := ⟨_, fun _ => rfl, by decide, by decide⟩

/-- SegmentLanesAreIndependent: two requests that agree at position 0 and differ elsewhere. -/
theorem witness_lanes :
    (0x010F1234 : Word).extractLsb' 0 4 = (0x01010004 : Word).extractLsb' 0 4 ∧
      (0x010F1234 : Word).getLsbD 16 = (0x01010004 : Word).getLsbD 16 ∧
      (0x010F1234 : Word).getLsbD 24 = (0x01010004 : Word).getLsbD 24 := by decide

/-- UnusedRequestBitsHaveNoEffect: two requests that differ in all eight unused bits. -/
theorem witness_unused_bits :
    (0xF0FF1234 : Word) &&& 0x0F0FFFFF = (0x000F1234 : Word) &&& 0x0F0FFFFF ∧
      (0xF0FF1234 : Word) ≠ (0x000F1234 : Word) := by decide

/-- OutputRowsAreTheEmittedUnits. -/
theorem witness_outInitSeq_next : ∃ t, exec .outInitSeq (holdsE1 false false) = .next t := ⟨_, rfl⟩

/-- StatusOfEveryCommand, PendingIsWrittenOnlyAsListed, TransactionEffectsTable and ConfigurationIsConstant: steps of
each kind of transaction that answer a next state. -/
theorem witness_steps :
    (∃ t, step (present (.command 0b10 0x000F1234 false) (holdsE1 false false)) = .next t) ∧
      (∃ t, step (present (.command 0b01 0 true) (holdsE1 false true)) = .next t) ∧
      (∃ t, step (present (.packet 0x33 0 0) (holdsE1 false true)) = .next t) ∧
      ∃ t, step (present (.packet 0x11 1 2) (holdsE1 true true)) = .next t :=
  ⟨⟨_, rfl⟩, ⟨_, rfl⟩, ⟨_, rfl⟩, ⟨_, rfl⟩⟩

/-- PendingIsWrittenOnlyAsListed, second clause: the flag goes from 0 to 1; and the third: a step that is no SET_LED. -/
theorem witness_pending_set :
    (∃ t, step (present (.command 0b10 0 false) (holdsE1 false false)) = .next t ∧
      (holdsE1 false false).commandPending = false ∧ t.commandPending = true) ∧
    isSetLed (.packet 0x33 0 0) = false ∧ ∃ t, step (present (.packet 0x33 0 0) (holdsE1 false true)) = .next t :=
  ⟨⟨_, rfl, rfl, rfl⟩, rfl, _, rfl⟩

/-- PendingMeansAcceptedAndNotCleared, OutputLogsAreNeverRead: a run that answers a next state. -/
theorem witness_run :
    (holdsE1 false false).config.legal = true ∧
      ∃ t, runAll [.command 0b10 0x000F1234 false, .packet 0x44 0 0] (holdsE1 false false) = .next t := ⟨rfl, _, rfl⟩

/-- PendingMeansAcceptedAndNotCleared, second clause. -/
theorem witness_reset_step : ∃ t, step (present (.packet 0x22 0 0) (holdsE1 false true)) = .next t := ⟨_, rfl⟩

/-- SingleOutstandingCommand: an accepted SET_LED; and for its second clause the two steps of another transaction. -/
theorem witness_accepted_setLed :
    (∃ m, step (present (.command 0b10 0x000F1234 false) (holdsE1 false false)) = .next m ∧
      m.responses = (holdsE1 false false).responses ++ [⟨.success, none⟩]) ∧
    ∃ t t', isSetLed (.command 0b01 0 true) = false ∧
      step (present (.command 0b01 0 true) (holdsE1 false true)) = .next t ∧
      step (present (.command 0b01 0 true) { holdsE1 false true with commandPending := false }) = .next t' :=
  ⟨⟨_, rfl, rfl⟩, _, _, rfl, rfl, rfl⟩

/-- SingleOutstandingCommand and LostAckIsRecoveredByInit: a legal instance, transactions that do not clear, and each
kind that does. -/
theorem witness_outstanding :
    (holdsE1 false false).config.legal = true ∧
      (holdsE1 false true).commandPending = true ∧
      (∀ u ∈ [Transaction.packet 0x11 1 2, Transaction.packet 0x44 0 0, Transaction.command 0b01 0 true,
          Transaction.command 0b11 0 false, Transaction.command 0b10 5 false],
        isClearing (holdsE1 false false).config u = false) ∧
      isClearing (holdsE1 false false).config (.packet 0x33 0 0) = true ∧
      isClearing (holdsE1 false false).config (.packet 0x22 0 0) = true ∧
      isClearing (holdsE1 true false).config (.packet 0x11 0 0) = true ∧
      isClearing (holdsE1 false false).config (.command 0b00 0 false) = true ∧
      isSetLed (.command 0b01 0 true) = false := by decide

/-- RefusedFrameIsNeverReplayed: transactions that hold the flag and transactions that free it, and the last clause. -/
theorem witness_refused_frame :
    (holdsE1 false true).config.legal = true ∧ (holdsE1 false true).commandPending = true ∧
      (∀ u ∈ [Transaction.command 0b10 5 false, Transaction.packet 0x11 1 2],
        isClearing (holdsE1 false true).config u = false) ∧
      (∀ u ∈ [Transaction.packet 0x33 0 0, Transaction.command 0b00 0 false], isSetLed u = false) ∧
      (holdsE1 false false).commandPending = false ∧
      (holdsE1 false false).lastLedFrame = ledEncode (holdsE1 false false).config 0x000F1234 := by decide

/-- GetButtonsAnswersTheLatestSnapshot and GetButtonsAnswersTheLastEventsDataBytes: a ButtonEvent and transactions that are none. -/
theorem witness_latest_snapshot :
    (holdsE1 false true).config.legal = true ∧ isButtonEvent (holdsE1 false true).config (.packet 0x11 5 10) = true ∧
      (∀ u ∈ [Transaction.packet 0x22 0 0, Transaction.command 0b00 0 false],
        isButtonEvent (holdsE1 false true).config u = false) ∧
      (testConfig false).legal = true := by decide

/-- ConfigurationIsConstant. -/
theorem witness_exec_next : ∃ t, exec (.setLed 0 false) (holdsE1 false true) = .next t := ⟨_, rfl⟩

/-- UpperSnapshotBitsAreUnobservable: snapshots that differ in all the upper bits. -/
theorem witness_upper_bits :
    (⟨0xF5, 0xFA⟩ : ButtonSnapshot).b0.extractLsb' 0 4 = (⟨0x05, 0x0A⟩ : ButtonSnapshot).b0.extractLsb' 0 4 ∧
      (⟨0xF5, 0xFA⟩ : ButtonSnapshot).b1.extractLsb' 0 4 = (⟨0x05, 0x0A⟩ : ButtonSnapshot).b1.extractLsb' 0 4 ∧
      ∃ t, runAll [.command 0b01 0 true] { holdsE1 false true with lastButtons := ⟨0x05, 0x0A⟩ } = .next t :=
  ⟨by decide, by decide, _, rfl⟩

/-- StepKeepsTheStateInvariant: a state that meets the invariant with the flag set, and its step. -/
theorem witness_invariant_state :
    (present (.command 0b10 0 false) (holdsE1 false true)).inv = true ∧
      ∃ t, step (present (.command 0b10 0 false) (holdsE1 false true)) = .next t := ⟨by decide, _, rfl⟩

/-- The invariant says something: a pending flag without a transmitted frame breaks it, and so does a wrong event. -/
theorem test_invariant_excludes :
    State.inv { State.resetWith (testConfig false) with commandPending := true } = false ∧
      State.inv { State.resetWith (testConfig false) with outLog := [[0x66, 0x55]] } = false := by decide

end Sys2Proof.Machine
end

section
/-! PROOFS. The pending flag (10_state.md R23): what each instruction does to it, and that only SET_LED reads it. -/

namespace Sys2Proof

/-- The instructions that clear the pending flag (R23). -/
def Instr.clearsPending : Instr → Bool
  | .buttonEventFallthrough _ _ | .reset _ _ | .ack _ _ | .init _ _ => true
  | _ => false

/-- The one instruction that can set the pending flag, and the one that reads it (R23, R162). -/
def Instr.isSetLed : Instr → Bool
  | .setLed _ _ => true
  | _ => false

theorem Instr.eq_setLed_of_isSetLed {i : Instr} (h : i.isSetLed = true) : ∃ arg p, i = .setLed arg p := by
  cases i with
  | setLed arg p => exact ⟨arg, p, rfl⟩
  | _ => cases h

namespace Machine

/-- R23's list of clearing transactions, read from the transaction's bits, is the list of the instructions that clear.
The packet dispatch tries ButtonEvent first (R100), so this needs the opcodes to be distinct (R8). -/
theorem decodeTransaction_clearsPending {c : Config} (hl : c.legal = true) (u : Transaction) :
    (decodeTransaction c u).clearsPending = isClearing c u := by
  obtain ⟨hbr, hba, -⟩ := c.legal_iff.1 hl
  cases u with
  | packet op d1 d2 =>
    rw [decodeTransaction]
    by_cases hb : op = c.opButtonEvent
    · subst hb
      cases hf : c.eventFallthrough with
      | false => simp [decodePacket_buttonEvent c d1 d2 hf, Instr.clearsPending, isClearing, hf, hbr, hba]
      | true => simp [decodePacket_buttonEventFallthrough c d1 d2 hf, Instr.clearsPending, isClearing, hf]
    by_cases hr : op = c.opReset
    · subst hr
      simp [decodePacket_reset hl, Instr.clearsPending, isClearing]
    by_cases ha : op = c.opAck
    · subst ha
      simp [decodePacket_ack hl, Instr.clearsPending, isClearing]
    simp [decodePacket_other hb hr ha, Instr.clearsPending, isClearing, hb, hr, ha]
  | command code arg p =>
    simp only [decodeTransaction, decodeCommand, isClearing]
    split_ifs <;> simp_all [Instr.clearsPending]

theorem decodeTransaction_isSetLed (c : Config) (u : Transaction) :
    (decodeTransaction c u).isSetLed = isSetLed u := by
  cases u with
  | packet op d1 d2 =>
    simp only [decodeTransaction, decodePacket, isSetLed]
    split_ifs <;> rfl
  | command code arg p =>
    simp only [decodeTransaction, decodeCommand, isSetLed]
    split_ifs <;> simp_all [Instr.isSetLed]

/-- The flag after an instruction: an accepted SET_LED sets it, and a refused one finds it set. -/
theorem execState_commandPending (i : Instr) (s : State) :
    (execState i s).commandPending = if i.clearsPending then false else i.isSetLed || s.commandPending := by
  cases i with
  | getButtons arg slot => cases slot <;> rfl
  | setLed arg slot =>
    cases hp : s.commandPending with
    | true => rw [execState_setLed_pending arg slot hp]; exact hp
    | false => rw [execState_setLed_free arg slot hp]; rfl
  | _ => rfl

/-- Only SET_LED reads the flag. -/
theorem execState_withPending {i : Instr} (h : i.isSetLed = false) (b : Bool) (s : State) :
    execState i { s with commandPending := b } =
      { execState i s with commandPending := if i.clearsPending then false else b } := by
  cases i with
  | getButtons arg slot => cases slot <;> rfl
  | setLed arg slot => cases h
  | _ => rfl

theorem transactionState_commandPending {s : State} (hl : s.config.legal = true) (u : Transaction) :
    (transactionState u s).commandPending =
      if isClearing s.config u then false else isSetLed u || s.commandPending := by
  rw [transactionState, execState_commandPending, decodeTransaction_clearsPending hl, decodeTransaction_isSetLed]

/-- No transaction but SET_LED takes the flag from 0 to 1. -/
theorem isSetLed_of_pending_set {s : State} (hl : s.config.legal = true) {u : Transaction}
    (h0 : s.commandPending = false) (h1 : (transactionState u s).commandPending = true) : isSetLed u = true := by
  rw [transactionState_commandPending hl, h0] at h1
  have h : isClearing s.config u = false ∧ isSetLed u = true := by simpa using h1
  exact h.2

/-- A SET_LED that finds the flag clear completes with SUCCESS (R150). -/
theorem transactionState_setLed_free_responses {s : State} {u : Transaction} (hu : isSetLed u = true)
    (h0 : s.commandPending = false) : (transactionState u s).responses = s.responses ++ [⟨.success, none⟩] := by
  obtain ⟨arg, p, hi⟩ :=
    Instr.eq_setLed_of_isSetLed (i := decodeTransaction s.config u) (by rw [decodeTransaction_isSetLed, hu])
  rw [transactionState, hi, execState_setLed_free arg p h0, respond_responses]

theorem transactionState_withPending {s : State} (hl : s.config.legal = true) {u : Transaction}
    (hu : isSetLed u = false) (b : Bool) :
    transactionState u { s with commandPending := b } =
      { transactionState u s with commandPending := if isClearing s.config u then false else b } := by
  rw [← decodeTransaction_isSetLed s.config] at hu
  rw [← decodeTransaction_clearsPending hl]
  exact execState_withPending hu b s

/-- A step of a presented transaction answers only where the configuration is legal, with the transaction's state. -/
theorem step_present_next {s t : State} {u : Transaction} (h : step (present u s) = .next t) :
    s.config.legal = true ∧ t = transactionState u s := by
  have hl : s.config.legal = true := (step_next_cases h).1
  rw [step_present hl] at h
  exact ⟨hl, (Host.Outcome.next.inj h).symm⟩

/-- Settles O27: each clause is a fact about `transactionState`, the state that a presented transaction's step answers. -/
theorem pendingIsWrittenOnlyAsListed : Obligations.PendingIsWrittenOnlyAsListed := by
  refine ⟨resetWith_commandPending, fun s t u h => ?_⟩
  obtain ⟨hl, rfl⟩ := step_present_next h
  refine ⟨transactionState_commandPending hl u, fun h0 h1 => ?_,
    fun hu b => ⟨if isClearing s.config u then false else b, ?_⟩⟩
  · have hu := isSetLed_of_pending_set hl h0 h1
    exact ⟨hu, transactionState_setLed_free_responses hu h0⟩
  · rw [← transactionState_withPending hl hu b]
    exact step_present (s := { s with commandPending := b }) hl u

end Machine

end Sys2Proof
end

section
/-! PROOFS. The combinational functions: REMAP bit by bit (41_button_remapper.md R120), the fields and the segment byte
of a request as the rules write them (42_led_encoder.md R130 to R133), and which bits of a request are read at all
(30_encoding.md R68). -/

namespace Sys2Proof.Machine

/-! ### REMAP -/

/-- R120's pseudocode, bit by bit. -/
theorem getLsbD_remap (b0 b1 : Byte) (i : Nat) :
    (remap b0 b1).getLsbD i =
      if i < 4 then b0.getLsbD i
      else if i = 4 then b1.getLsbD 0
      else if i = 5 then b1.getLsbD 2
      else if i = 6 then b1.getLsbD 1
      else if i = 7 then b1.getLsbD 3
      else false := by
  simp only [remap, bitOf, BitVec.getLsbD_append, BitVec.getLsbD_extractLsb']
  split_ifs <;> grind

/-- R120's one expression: the five fields shifted to their places and joined. -/
theorem remap_eq_or_shifts (b0 b1 : Byte) :
    remap b0 b1 =
      ((b0.extractLsb' 0 4).setWidth 8 ||| ((b1.extractLsb' 0 1).setWidth 8 <<< 4) |||
        ((b1.extractLsb' 2 1).setWidth 8 <<< 5) ||| ((b1.extractLsb' 1 1).setWidth 8 <<< 6) |||
        ((b1.extractLsb' 3 1).setWidth 8 <<< 7)).setWidth 32 := by
  apply BitVec.eq_of_getLsbD_eq
  intro i hi
  rw [getLsbD_remap]
  simp only [BitVec.getLsbD_setWidth, BitVec.getLsbD_or, BitVec.getLsbD_shiftLeft, BitVec.getLsbD_extractLsb']
  split_ifs <;> grind

/-- `w[31:8] = 0` (R120). -/
theorem getLsbD_remap_of_le (b0 b1 : Byte) {i : Nat} (hi : 8 ≤ i) : (remap b0 b1).getLsbD i = false := by
  rw [getLsbD_remap, if_neg (by omega), if_neg (by omega), if_neg (by omega), if_neg (by omega), if_neg (by omega)]

/-- Settles O14: each bit is a branch of R120's pseudocode, and the example is evaluated. -/
theorem remapPlacesTheButtonBits : Obligations.RemapPlacesTheButtonBits := by
  refine ⟨fun b0 b1 => ⟨fun i hi => ?_, getLsbD_remap b0 b1 4, getLsbD_remap b0 b1 5, getLsbD_remap b0 b1 6,
    getLsbD_remap b0 b1 7, fun i hi => getLsbD_remap_of_le b0 b1 hi, remap_eq_or_shifts b0 b1⟩, by decide⟩
  rw [getLsbD_remap, if_pos hi]

/-! ### ENCODE -/

/-- R131's shift and mask of the low half of the request give the digit. -/
theorem setWidth_digitAt (req : Word) (i : Fin 4) :
    (digitAt req i).setWidth 16 = (req.extractLsb' 0 16 >>> (4 * i.val)) &&& 0x000F := by
  apply BitVec.eq_of_getLsbD_eq
  intro j hj
  have hmask : (0x000F : BitVec 16).getLsbD j = decide (j < 4) := by decide +revert
  simp only [digitAt, BitVec.getLsbD_setWidth, BitVec.getLsbD_extractLsb', BitVec.getLsbD_and,
    BitVec.getLsbD_ushiftRight, hmask]
  grind

/-- `SEG_LUT` as a list lookup (R130). -/
theorem segLut_eq_getD (digit : BitVec 4) : segLut digit = segTable.toList.getD digit.toNat 0x00 := by
  simp [segLut, digit.isLt]

/-- R131 and R132 in the rules' own words. -/
theorem segmentAt_eq (req : Word) (i : Fin 4) :
    segmentAt req i =
      if req.getLsbD (16 + i.val) then
        segTable.toList.getD ((req.extractLsb' 0 16 >>> (4 * i.val)) &&& 0x000F).toNat 0x00 +
          (if req.getLsbD (24 + i.val) then 16 else 0)
      else 0x00 := by
  have hdigit : ((req.extractLsb' 0 16 >>> (4 * i.val)) &&& 0x000F).toNat = (digitAt req i).toNat := by
    rw [← setWidth_digitAt, BitVec.toNat_setWidth_of_le (by decide)]
  rw [hdigit, ← segLut_eq_getD]
  rfl

theorem frameBytes_ledEncode (c : Config) (req : Word) :
    frameBytes (ledEncode c req) =
      [c.opLedSet, 0x0F, segmentAt req 0, segmentAt req 1, segmentAt req 2, segmentAt req 3] := rfl

/-- Settles O16: each segment byte is R132's, and the frame lists them behind the two fixed bytes. -/
theorem encodeBuildsTheFrame : Obligations.EncodeBuildsTheFrame := by
  refine ⟨fun req i => ⟨setWidth_digitAt req i, rfl, rfl, rfl⟩, fun c req seg hseg => ?_, fun c => rfl⟩
  have h : ∀ i, segmentAt req i = seg i := fun i => (segmentAt_eq req i).trans (hseg i).symm
  rw [frameBytes_ledEncode, h, h, h, h]

/-! ### The unused bits of a request: masking them away leaves every field (R68) -/

theorem digitAt_and_used (req : Word) (i : Fin 4) : digitAt (req &&& 0x0F0FFFFF) i = digitAt req i := by
  have hmask : (0x0F0FFFFF : Word).extractLsb' (4 * i.val) 4 = BitVec.allOnes 4 := by decide +revert
  rw [digitAt, BitVec.extractLsb'_and, hmask, BitVec.and_allOnes, digitAt]

theorem enableAt_and_used (req : Word) (i : Fin 4) : enableAt (req &&& 0x0F0FFFFF) i = enableAt req i := by
  have hmask : (0x0F0FFFFF : Word).getLsbD (16 + i.val) = true := by decide +revert
  rw [enableAt, BitVec.getLsbD_and, hmask, Bool.and_true, enableAt]

theorem decimalAt_and_used (req : Word) (i : Fin 4) : decimalAt (req &&& 0x0F0FFFFF) i = decimalAt req i := by
  have hmask : (0x0F0FFFFF : Word).getLsbD (24 + i.val) = true := by decide +revert
  rw [decimalAt, BitVec.getLsbD_and, hmask, Bool.and_true, decimalAt]

theorem segmentAt_and_used (req : Word) (i : Fin 4) : segmentAt (req &&& 0x0F0FFFFF) i = segmentAt req i := by
  rw [segmentAt, digitAt_and_used, enableAt_and_used, decimalAt_and_used, segmentAt]

/-- R134, case 4: `ENCODE(req) = ENCODE(req & 0x0F0FFFFF)`. -/
theorem ledEncode_and_used (c : Config) (req : Word) : ledEncode c (req &&& 0x0F0FFFFF) = ledEncode c req := by
  simp only [ledEncode, segmentAt_and_used]

theorem ledEncode_congr_used (c : Config) {req req' : Word} (h : req &&& 0x0F0FFFFF = req' &&& 0x0F0FFFFF) :
    ledEncode c req = ledEncode c req' := by
  rw [← ledEncode_and_used, h, ledEncode_and_used]

/-- SET_LED is TRY_SET_LED of the encoded request (R162). -/
theorem exec_setLed (req : Word) (p : Bool) (s : State) :
    exec (.setLed req p) s = trySetLed (ledEncode s.config req) s := rfl

/-- TRY_SET_LED answers BUSY or SUCCESS, and no other status (R150). -/
theorem trySetLed_response (f : LedFrame) (s : State) :
    ∃ t status, trySetLed f s = .next t ∧ t.responses = s.responses ++ [⟨status, none⟩] ∧
      status ≠ .invalidArgument := by
  obtain ⟨t, h⟩ := trySetLed_next f s
  obtain ⟨-, rfl⟩ | ⟨-, rfl⟩ := trySetLed_cases h
  · exact ⟨_, .busy, h, rfl, by decide⟩
  · exact ⟨_, .success, h, rfl, by decide⟩

/-- Settles O18: the frame does not read the unused bits, and SET_LED is TRY_SET_LED of the frame. -/
theorem unusedRequestBitsHaveNoEffect : Obligations.UnusedRequestBitsHaveNoEffect := by
  refine ⟨fun c req req' h => ledEncode_congr_used c h, fun s req req' p h => ?_, fun s req p => ?_⟩
  · rw [exec_setLed, exec_setLed, ledEncode_congr_used s.config h]
  · exact trySetLed_response (ledEncode s.config req) s

end Sys2Proof.Machine
end

section
/-! PROOFS. The packet handlers (40_packet_decoder.md R104 to R106): which instruction a packet is, and the state it
leads to. -/

namespace Sys2Proof

/-- A packet is one of the five packet rows, with its own operands (R61, R100). -/
theorem decodePacket_cases (c : Config) (op d1 d2 : Byte) :
    decodePacket c op d1 d2 = .buttonEvent d1 d2 ∨ decodePacket c op d1 d2 = .buttonEventFallthrough d1 d2 ∨
      decodePacket c op d1 d2 = .reset d1 d2 ∨ decodePacket c op d1 d2 = .ack d1 d2 ∨
      decodePacket c op d1 d2 = .other op d1 d2 := by
  unfold decodePacket
  split_ifs <;> simp

namespace Machine

/-- The Reset action as one update of the state: its three transmit events and the cleared flag (R103). -/
theorem resetAction_eq (s : State) :
    resetAction s = { s with
      commandPending := false
      outLog := s.outLog ++ [initSeq s.config, frameBytes s.lastLedFrame, frameBytes s.lastLedFrame] } := by
  rw [← resetAction_outLog]
  rfl

theorem clearPending_of_clear {s : State} (h : s.commandPending = false) : clearPending s = s := by
  rw [clearPending, ← h]

theorem transactionState_packet (op d1 d2 : Byte) (s : State) :
    transactionState (.packet op d1 d2) s = execState (decodePacket s.config op d1 d2) s := rfl

theorem transactionState_ack {s : State} (hl : s.config.legal = true) (d1 d2 : Byte) :
    transactionState (.packet s.config.opAck d1 d2) s = clearPending s := by
  rw [transactionState_packet, decodePacket_ack hl, execState_ack]

theorem transactionState_other {s : State} {op : Byte} (hb : op ≠ s.config.opButtonEvent)
    (hr : op ≠ s.config.opReset) (ha : op ≠ s.config.opAck) (d1 d2 : Byte) :
    transactionState (.packet op d1 d2) s = s := by
  rw [transactionState_packet, decodePacket_other hb hr ha, execState_other]

/-- What a packet may do (R106): write the three registers and add transmit events. -/
theorem transactionState_packet_effect (op d1 d2 : Byte) (s : State) :
    ∃ (buttons : ButtonSnapshot) (frame : LedFrame) (pending : Bool) (events : List (List Byte)),
      transactionState (.packet op d1 d2) s = { s with
        lastButtons := buttons
        lastLedFrame := frame
        commandPending := pending
        outLog := s.outLog ++ events } := by
  rw [transactionState_packet]
  obtain h | h | h | h | h := decodePacket_cases s.config op d1 d2 <;> rw [h]
  · exact ⟨⟨d1, d2⟩, s.lastLedFrame, s.commandPending, [], by
      rw [execState_buttonEvent, List.append_nil, storeButtons]⟩
  · exact ⟨⟨d1, d2⟩, s.lastLedFrame, false, _, by rw [execState_buttonEventFallthrough, resetAction_eq]; rfl⟩
  · exact ⟨s.lastButtons, s.lastLedFrame, false, _, by rw [execState_reset, resetAction_eq]⟩
  · exact ⟨s.lastButtons, s.lastLedFrame, false, [], by rw [execState_ack, List.append_nil, clearPending]⟩
  · exact ⟨s.lastButtons, s.lastLedFrame, s.commandPending, [], by rw [execState_other, List.append_nil]⟩

/-- Settles O9: an Ack is `clearPending`, and a SET_LED that finds the flag clear succeeds. -/
theorem ackClearsThePendingFlag : Obligations.AckClearsThePendingFlag := by
  intro s d1 d2
  have hexec : exec (.ack d1 d2) s = .next (clearPending s) := exec_eq_next (.ack d1 d2) s
  refine ⟨hexec, fun h0 => ?_, fun hl => ⟨?_, fun arg p => ?_⟩⟩
  · rw [hexec, clearPending_of_clear h0]
  · rw [step_present hl, transactionState_ack hl, clearPending]
  · exact ⟨_, step_present (s := clearPending s) hl _,
      transactionState_setLed_free_responses rfl (clearPending_commandPending s)⟩

/-- Settles O10: the outbound opcode is one of the opcodes that the dispatch does not know. -/
theorem otherPacketIsIgnored : Obligations.OtherPacketIsIgnored := by
  intro s op d1 d2
  have hstep (op' : Byte) (hl : s.config.legal = true) (hb : op' ≠ s.config.opButtonEvent)
      (hr : op' ≠ s.config.opReset) (ha : op' ≠ s.config.opAck) :
      step (present (.packet op' d1 d2) s) = .next s := by
    rw [step_present hl, transactionState_other hb hr ha]
  exact ⟨exec_eq_next (.other op d1 d2) s, hstep op, hstep s.config.opLedSet⟩

/-- Settles O11: the step of a packet answers its `transactionState`, and each of the five rows is such an update. -/
theorem packetsCompleteWithoutResponse : Obligations.PacketsCompleteWithoutResponse := by
  intro s op d1 d2 hl
  rw [step_present hl]
  obtain ⟨buttons, frame, pending, events, h⟩ := transactionState_packet_effect op d1 d2 s
  exact ⟨buttons, frame, pending, events, congrArg _ h⟩

end Machine

end Sys2Proof
end

section
/-! PROOFS. Flow control (43_ack_gate.md R150): SET_LED in a legal instance is TRY_SET_LED of the encoded request, and
the examples of R150 and R162. -/

namespace Sys2Proof.Machine

/-- In a legal instance the step of a presented transaction is the meaning of the instruction it decodes to. -/
theorem step_present_eq_exec {s : State} (hl : s.config.legal = true) (u : Transaction) :
    step (present u s) = exec (decodeTransaction s.config u) s :=
  (step_present hl u).trans (exec_eq_next _ s).symm

theorem step_present_setLed {s : State} (hl : s.config.legal = true) (req : Word) (p : Bool) :
    step (present (.command 0b10 req p) s) = exec (.setLed req p) s :=
  step_present_eq_exec hl _

theorem exec_setLed_pending {s : State} (h : s.commandPending = true) (req : Word) (p : Bool) :
    exec (.setLed req p) s = .next (respond ⟨.busy, none⟩ s) :=
  trySetLed_pending h

theorem exec_setLed_free {s : State} (h : s.commandPending = false) (req : Word) (p : Bool) :
    exec (.setLed req p) s = .next (respond ⟨.success, none⟩
      { s with
        commandPending := true
        lastLedFrame := ledEncode s.config req
        outLog := s.outLog ++ [frameBytes (ledEncode s.config req), frameBytes (ledEncode s.config req)] }) :=
  trySetLed_free h

/-- Settles O21: SET_LED is TRY_SET_LED, whose two outcomes are the two values of the flag. In the examples the first
SET_LED finds the flag clear and the second finds it set; their frame is the example of R133. -/
theorem setLedIsGuardedByPending : Obligations.SetLedIsGuardedByPending := by
  refine ⟨fun s frame => ⟨fun h => trySetLed_pending h, fun h => trySetLed_free h⟩,
    fun s req p => ⟨fun h => exec_setLed_pending h req p, fun h => exec_setLed_free h req p,
      fun hl => step_present_setLed hl req p⟩, fun c p hl => ?_⟩
  have hfirst := (step_present_setLed (s := State.resetWith c) hl 0x000F1234 p).trans
    (exec_setLed_free (resetWith_commandPending c) 0x000F1234 p)
  obtain ⟨-, -, hframe⟩ := encodeBuildsTheFrame
  exact ⟨_, hfirst, rfl, rfl, hframe c, rfl,
    (step_present_setLed hl 0x000F1234 p).trans (exec_setLed_pending rfl 0x000F1234 p)⟩

end Sys2Proof.Machine
end

section
/-! PROOFS. Errors (60_exceptions.md R200): no step faults, and every host command adds exactly one response, which is
all that an error changes. -/

namespace Sys2Proof

/-- A command is one of the four command rows, with its own operands (R70). -/
theorem decodeCommand_cases (code : BitVec 2) (arg : Word) (p : Bool) :
    decodeCommand code arg p = .init arg p ∨ decodeCommand code arg p = .getButtons arg p ∨
      decodeCommand code arg p = .setLed arg p ∨ decodeCommand code arg p = .reserved arg p := by
  unfold decodeCommand
  split_ifs <;> simp

namespace Machine

theorem step_ne_fault (s : State) (f : Fault) : step s ≠ .fault f := by
  obtain ⟨-, h⟩ | ⟨-, -, h⟩ | ⟨-, t, rest, -, h⟩ := step_cases s <;> simp [h]

/-- `t` is a completion of a host command in the state `s` (R200): one response more, and with an error status nothing
else. -/
def Completes (s t : State) : Prop :=
  ∃ r, t.responses = s.responses ++ [r] ∧ (r.status ≠ .success → t = respond r s)

/-- A completion that changes nothing but the response log, whatever its status. -/
theorem completes_respond (r : Response) (s : State) : Completes s (respond r s) :=
  ⟨r, respond_responses s r, fun _ => rfl⟩

/-- A completion with SUCCESS may change everything but the earlier responses. -/
theorem completes_success {s t : State} (result : Option Word) (h : t.responses = s.responses) :
    Completes s (respond ⟨.success, result⟩ t) :=
  ⟨⟨.success, result⟩, by rw [respond_responses, h], fun hne => absurd rfl hne⟩

/-- The two commands that write or transmit are INIT, which always succeeds (R160), and SET_LED where it finds the flag
clear (R162); the others only answer. -/
theorem transactionState_command_completes (code : BitVec 2) (arg : Word) (p : Bool) (s : State) :
    Completes s (transactionState (.command code arg p) s) := by
  rw [transactionState, decodeTransaction]
  obtain h | h | h | h := decodeCommand_cases code arg p <;> rw [h]
  · rw [execState_init]
    exact completes_success none rfl
  · cases p with
    | true =>
      rw [execState_getButtons_slot]
      exact completes_respond _ s
    | false =>
      rw [execState_getButtons_null]
      exact completes_respond _ s
  · cases hp : s.commandPending with
    | true =>
      rw [execState_setLed_pending arg p hp]
      exact completes_respond _ s
    | false =>
      rw [execState_setLed_free arg p hp]
      exact completes_success none rfl
  · rw [execState_reserved]
    exact completes_respond _ s

/-- Settles O24: the step of a host command answers its `transactionState`, which completes it. -/
theorem errorStatusesHaveNoEffect : Obligations.ErrorStatusesHaveNoEffect := by
  refine ⟨step_ne_fault, fun s code arg p hl => ?_⟩
  obtain ⟨r, hr, herr⟩ := transactionState_command_completes code arg p s
  exact ⟨_, r, step_present hl _, hr, herr⟩

end Machine

end Sys2Proof
end

section
/-! PROOFS. The pending flag over runs (70_reset_and_hazards.md R245, R246): only a clearing transaction takes it away,
and SET_LED answers by it. -/

namespace Sys2Proof.Machine

/-- Where the flag is set, a SET_LED only adds a BUSY response (R151). -/
theorem step_present_setLed_pending {s : State} (hl : s.config.legal = true) (hp : s.commandPending = true)
    (req : Word) (p : Bool) :
    step (present (.command 0b10 req p) s) = .next { s with responses := s.responses ++ [⟨.busy, none⟩] } :=
  (step_present_setLed hl req p).trans (exec_setLed_pending hp req p)

/-- Where the flag is clear, a SET_LED succeeds (R150). -/
theorem step_present_setLed_free {s : State} (hl : s.config.legal = true) (h0 : s.commandPending = false)
    (req : Word) (p : Bool) :
    ∃ t, step (present (.command 0b10 req p) s) = .next t ∧ t.responses = s.responses ++ [⟨.success, none⟩] :=
  ⟨_, step_present hl _, transactionState_setLed_free_responses rfl h0⟩

theorem transactionState_commandPending_of_clearing {s : State} (hl : s.config.legal = true) {u : Transaction}
    (hu : isClearing s.config u = true) : (transactionState u s).commandPending = false := by
  rw [transactionState_commandPending hl, if_pos hu]

/-- After a SET_LED the flag is set, whether it was accepted or refused. -/
theorem transactionState_setLed_commandPending {s : State} (hl : s.config.legal = true) (req : Word) (p : Bool) :
    (transactionState (.command 0b10 req p) s).commandPending = true := by
  rw [transactionState_commandPending hl]
  rfl

/-- Any number of transactions that do not clear leave a set flag set. -/
theorem afterAll_commandPending_of_not_clearing {s : State} {ts : List Transaction} (hl : s.config.legal = true)
    (hp : s.commandPending = true) (hts : ∀ u ∈ ts, isClearing s.config u = false) :
    (afterAll ts s).commandPending = true := by
  induction ts generalizing s with
  | nil => exact hp
  | cons u ts ih =>
    obtain ⟨hu, hts⟩ := List.forall_mem_cons.1 hts
    refine ih (by rwa [transactionState_config]) ?_ (by rwa [transactionState_config])
    simp [transactionState_commandPending hl, hu, hp]

/-- Settles O29: a SET_LED leaves the flag set, transactions that do not clear keep it set and a clearing one clears it;
the two outcomes of TRY_SET_LED are the two values of the flag. That the first SET_LED was accepted is not used: a
refused one finds the flag set. The last clause is that only SET_LED reads the flag. -/
theorem singleOutstandingCommand : Obligations.SingleOutstandingCommand := by
  refine ⟨fun s m arg p hl hm _ ts hts => ?_, fun s t t' u b hu ht ht' => ?_⟩
  · obtain ⟨-, rfl⟩ := step_present_next hm
    have hp := transactionState_setLed_commandPending hl arg p
    rw [← transactionState_config (.command 0b10 arg p) s] at hl hts ⊢
    refine ⟨⟨_, runAll_eq hl ts, step_present_setLed_pending (by simpa using hl) ?_⟩,
      fun u hu => ⟨_, runAll_eq hl _, step_present_setLed_free (by simpa using hl) ?_⟩⟩
    · exact afterAll_commandPending_of_not_clearing hl hp hts
    · rw [presentAll_commandPending, afterAll_append]
      exact transactionState_commandPending_of_clearing (by simpa using hl) (by simpa using hu)
  · obtain ⟨hl, rfl⟩ := step_present_next ht
    obtain ⟨-, rfl⟩ := step_present_next ht'
    rw [transactionState_withPending hl hu b]

/-- INIT always succeeds (R160). -/
theorem transactionState_init_responses (arg : Word) (p : Bool) (s : State) :
    (transactionState (.command 0b00 arg p) s).responses = s.responses ++ [⟨.success, none⟩] := rfl

/-- Settles O30: the flag stays set, so SET_LED is BUSY; INIT is a clearing transaction, so the SET_LED after it finds
the flag clear. -/
theorem lostAckIsRecoveredByInit : Obligations.LostAckIsRecoveredByInit := by
  intro s ts hl hp hts
  have hp' := afterAll_commandPending_of_not_clearing hl hp hts
  refine ⟨_, runAll_eq hl ts, hp', step_present_setLed_pending (by simpa using hl) hp',
    fun arg arg' p p' => ⟨_, runAll_eq (by simpa using hl) _, ?_⟩⟩
  generalize presentAll [] (afterAll ts s) = m
  have h : (transactionState (.command 0b10 arg' p') (transactionState (.command 0b00 arg p) m)).responses =
      m.responses ++ [⟨.success, none⟩] ++ [⟨.success, none⟩] := by
    rw [transactionState_setLed_free_responses rfl rfl, transactionState_init_responses]
  rwa [List.append_assoc] at h

end Sys2Proof.Machine
end

section
/-! PROOFS. The stored buttons over runs (70_reset_and_hazards.md R250): only a ButtonEvent writes them. -/

namespace Sys2Proof

/-- The instructions that store the buttons (R101, R102). -/
def Instr.storesButtons : Instr → Bool
  | .buttonEvent _ _ | .buttonEventFallthrough _ _ => true
  | _ => false

namespace Machine

/-- The packets of R61's ButtonEvent opcode are those that decode to an instruction that stores the buttons. -/
theorem decodeTransaction_storesButtons (c : Config) (u : Transaction) :
    (decodeTransaction c u).storesButtons = isButtonEvent c u := by
  cases u with
  | packet op d1 d2 =>
    simp only [decodeTransaction, decodePacket, isButtonEvent]
    split_ifs <;> simp_all [Instr.storesButtons]
  | command code arg p =>
    simp only [decodeTransaction, decodeCommand, isButtonEvent]
    split_ifs <;> rfl

theorem execState_lastButtons {i : Instr} (h : i.storesButtons = false) (s : State) :
    (execState i s).lastButtons = s.lastButtons := by
  cases i with
  | buttonEvent d1 d2 | buttonEventFallthrough d1 d2 => cases h
  | getButtons arg slot => cases slot <;> rfl
  | setLed arg slot =>
    cases hp : s.commandPending with
    | true => rw [execState_setLed_pending arg slot hp, respond_lastButtons]
    | false => rw [execState_setLed_free arg slot hp, respond_lastButtons]
  | _ => rfl

theorem transactionState_lastButtons {s : State} {u : Transaction} (hu : isButtonEvent s.config u = false) :
    (transactionState u s).lastButtons = s.lastButtons :=
  execState_lastButtons (by rw [decodeTransaction_storesButtons, hu]) s

/-- Any number of transactions without a ButtonEvent leave the stored buttons. -/
theorem afterAll_lastButtons {s : State} {ts : List Transaction}
    (hts : ∀ u ∈ ts, isButtonEvent s.config u = false) : (afterAll ts s).lastButtons = s.lastButtons := by
  induction ts generalizing s with
  | nil => rfl
  | cons u ts ih =>
    obtain ⟨hu, hts⟩ := List.forall_mem_cons.1 hts
    exact (ih (by rwa [transactionState_config])).trans (transactionState_lastButtons hu)

/-- GET_BUTTONS with a slot only adds the answer: REMAP of the stored buttons (R161). -/
theorem step_present_getButtons {s : State} {b : ButtonSnapshot} (hl : s.config.legal = true)
    (hb : s.lastButtons = b) (arg : Word) :
    step (present (.command 0b01 arg true) s) =
      .next { s with responses := s.responses ++ [⟨.success, some (remap b.b0 b.b1)⟩] } := by
  subst hb
  exact step_present_eq_exec hl _

/-- Settles O34: the transactions after the ButtonEvent, or after the reset, leave the buttons that GET_BUTTONS
answers. What those buttons are, the run to the ButtonEvent says, so its own effect is not used. -/
theorem getButtonsAnswersTheLatestSnapshot : Obligations.GetButtonsAnswersTheLatestSnapshot := by
  refine ⟨fun s pre post event arg hl _ hpost => ?_, fun c ts arg hl hts => ?_⟩
  · refine ⟨_, _, runAll_eq hl _, runAll_eq hl _, step_present_getButtons (by simpa using hl) ?_ arg⟩
    rw [List.append_cons, presentAll_lastButtons, afterAll_append, presentAll_lastButtons]
    exact afterAll_lastButtons (by simpa using hpost)
  · have hb : (presentAll [] (afterAll ts (State.resetWith c))).lastButtons = resetButtons := afterAll_lastButtons hts
    have hzero : remap resetButtons.b0 resetButtons.b1 = 0x00000000 := by decide
    refine ⟨_, runAll_eq hl ts, ?_⟩
    rw [← hzero]
    exact step_present_getButtons (by simpa using hl) hb arg

end Machine

end Sys2Proof
end

section
/-! PROOFS. Runs of Reset actions (70_reset_and_hazards.md R244, R249): each replays the stored frame behind INIT_SEQ
and clears the flag, and only the ButtonEvents among them store buttons. -/

namespace Sys2Proof.Machine

/-- What one Reset action transmits in the state `s`: INIT_SEQ and the stored frame twice (R103). -/
def replay (s : State) : List (List Byte) :=
  [initSeq s.config, frameBytes s.lastLedFrame, frameBytes s.lastLedFrame]

/-- The packets that perform the Reset action: a Reset packet, and with fallthrough a ButtonEvent (R102, R103). -/
def isReplaying (c : Config) : Transaction → Bool
  | .packet op _ _ => op == c.opReset || (op == c.opButtonEvent && c.eventFallthrough)
  | .command _ _ _ => false

/-- A replaying packet is the Reset action, but for the buttons that a ButtonEvent stores first. -/
theorem transactionState_replaying {s : State} (hl : s.config.legal = true) {u : Transaction}
    (hu : isReplaying s.config u = true) :
    ∃ b, transactionState u s = resetAction { s with lastButtons := b } := by
  cases u with
  | packet op d1 d2 =>
    simp only [isReplaying, Bool.or_eq_true, Bool.and_eq_true, beq_iff_eq] at hu
    obtain rfl | ⟨rfl, hf⟩ := hu
    · exact ⟨s.lastButtons, by rw [transactionState_packet, decodePacket_reset hl, execState_reset]⟩
    · exact ⟨⟨d1, d2⟩, by
        rw [transactionState_packet, decodePacket_buttonEventFallthrough _ _ _ hf,
          execState_buttonEventFallthrough, storeButtons]⟩
  | command code arg p => cases hu

/-- A run of replaying packets. The Reset action changes neither the configuration nor the frame, so every one of them
transmits the same events. -/
theorem afterAll_replaying {s : State} {ts : List Transaction} (hl : s.config.legal = true)
    (hts : ∀ u ∈ ts, isReplaying s.config u = true) :
    ∃ b, afterAll ts s = { s with
      lastButtons := b
      commandPending := ts.isEmpty && s.commandPending
      outLog := s.outLog ++ (ts.map fun _ => replay s).flatten } := by
  induction ts generalizing s with
  | nil => exact ⟨s.lastButtons, by simp [afterAll]⟩
  | cons u ts ih =>
    obtain ⟨hu, hts⟩ := List.forall_mem_cons.1 hts
    obtain ⟨b, hb⟩ := transactionState_replaying hl hu
    obtain ⟨b', hb'⟩ := ih (s := resetAction { s with lastButtons := b }) hl hts
    refine ⟨b', ?_⟩
    rw [afterAll, hb, hb']
    simp [replay]

/-- Settles O12: Reset packets are replaying packets, and none of them is a ButtonEvent, so the buttons stay too. -/
theorem resetPacketsKeepButtonsAndFrame : Obligations.ResetPacketsKeepButtonsAndFrame := by
  intro s data hl
  obtain ⟨hbr, -, -⟩ := s.config.legal_iff.1 hl
  have hreplaying : ∀ u ∈ data.map fun d => Transaction.packet s.config.opReset d.1 d.2,
      isReplaying s.config u = true :=
    List.forall_mem_map.2 fun d _ => by simp [isReplaying]
  have hnone : ∀ u ∈ data.map fun d => Transaction.packet s.config.opReset d.1 d.2,
      isButtonEvent s.config u = false :=
    List.forall_mem_map.2 fun d _ => by simp [isButtonEvent, hbr.symm]
  obtain ⟨b, h⟩ := afterAll_replaying hl hreplaying
  have hb := afterAll_lastButtons hnone
  rw [h] at hb
  obtain rfl : b = s.lastButtons := hb
  rw [runAll_eq hl, h]
  simp [presentAll, replay, initSeq, Function.comp_def]

/-- A replay is 14 bytes: two of INIT_SEQ and twice six of the frame (R249). -/
theorem length_flatten_replay (s : State) : (replay s).flatten.length = 14 := rfl

theorem length_flatten_replays (s : State) (ts : List Transaction) :
    (ts.map fun _ => replay s).flatten.flatten.length = 14 * ts.length := by
  induction ts with
  | nil => rfl
  | cons u ts ih =>
    rw [List.map_cons, List.flatten_cons, List.flatten_append, List.length_append, length_flatten_replay, ih,
      List.length_cons]
    omega

theorem isReplaying_of_isButtonEvent {c : Config} (hf : c.eventFallthrough = true) {u : Transaction}
    (hu : isButtonEvent c u = true) : isReplaying c u = true := by
  cases u with
  | packet op d1 d2 =>
    rw [isButtonEvent] at hu
    rw [isReplaying, hu, hf, Bool.and_true, Bool.or_true]
  | command code arg p => cases hu

/-- Settles O13: with fallthrough ButtonEvents are replaying packets; after at least one of them the flag is clear. -/
theorem fallthroughStreamLoadsTheLink : Obligations.FallthroughStreamLoadsTheLink := by
  intro s events hl hf hevents
  obtain ⟨b, h⟩ := afterAll_replaying hl fun u hu => isReplaying_of_isButtonEvent hf (hevents u hu)
  refine ⟨_, runAll_eq hl events, ?_⟩
  rw [h]
  refine ⟨rfl, ?_, fun hne => ?_⟩
  · rw [presentAll_outLog, List.flatten_append, List.length_append, length_flatten_replays]
  · have hclear : (events.isEmpty && s.commandPending) = false := by simp [hne]
    exact ⟨hclear, step_present_setLed_free hl hclear⟩

end Sys2Proof.Machine
end

section
/-! PROOFS. The encoding (30_encoding.md R60 to R76): the decoder and the encoder are inverse to each other on the
well-formed instructions, and the packet dispatch is total. -/

namespace Sys2Proof

open Machine

/-! ### Decoding an encoding -/

theorem decodePacket_opButtonEvent (c : Config) (d1 d2 : Byte) :
    decodePacket c c.opButtonEvent d1 d2 =
      if c.eventFallthrough then .buttonEventFallthrough d1 d2 else .buttonEvent d1 d2 :=
  if_pos rfl

theorem decode_initSeq (c : Config) : decode c (.outbound (initSeq c)) = .ok .outInitSeq := by
  simp [decode, decodeOutbound, initSeq]

theorem decode_ledFrame {c : Config} {s0 s1 s2 s3 : Byte} (hw : (Instr.outLedFrame s0 s1 s2 s3).wf c = true) :
    decode c (.outbound [c.opLedSet, digitSelectMask, s0, s1, s2, s3]) = .ok (.outLedFrame s0 s1 s2 s3) := by
  simp [decode, decodeOutbound, hw]

/-- Settles O3: each row's encoding falls under its own branch of the dispatch. Legality separates the three inbound
opcodes, and well-formedness fixes the BUTTON_EVENT row, the opcode of OTHER and the segment bytes of a frame. -/
theorem encodedInstructionDecodesBack : Obligations.EncodedInstructionDecodesBack := by
  intro c i hl hw
  cases i with
  | buttonEvent d1 d2 =>
    have hf : c.eventFallthrough = false := by simpa [Instr.wf] using hw
    exact congrArg Except.ok (decodePacket_buttonEvent c d1 d2 hf)
  | buttonEventFallthrough d1 d2 => exact congrArg Except.ok (decodePacket_buttonEventFallthrough c d1 d2 hw)
  | reset d1 d2 => exact congrArg Except.ok (decodePacket_reset hl d1 d2)
  | ack d1 d2 => exact congrArg Except.ok (decodePacket_ack hl d1 d2)
  | other op d1 d2 =>
    obtain ⟨⟨hb, hr⟩, ha⟩ : (op ≠ c.opButtonEvent ∧ op ≠ c.opReset) ∧ op ≠ c.opAck := by
      simpa [Instr.wf] using hw
    exact congrArg Except.ok (decodePacket_other hb hr ha d1 d2)
  | init arg p | getButtons arg p | setLed arg p | reserved arg p => rfl
  | outInitSeq => exact decode_initSeq c
  | outLedFrame s0 s1 s2 s3 => exact decode_ledFrame hw

/-! ### Encoding what was decoded -/

theorem decodePacket_wf (c : Config) (op d1 d2 : Byte) : (decodePacket c op d1 d2).wf c = true := by
  unfold decodePacket
  split_ifs <;> simp_all [Instr.wf]

theorem decodeCommand_wf (c : Config) (code : BitVec 2) (arg : Word) (p : Bool) :
    (decodeCommand code arg p).wf c = true := by
  obtain h | h | h | h := decodeCommand_cases code arg p <;> rw [h] <;> rfl

/-- Every transaction decodes to an instruction of the instance, legal or not. -/
theorem decodeTransaction_wf (c : Config) (u : Transaction) : (decodeTransaction c u).wf c = true := by
  cases u with
  | packet op d1 d2 => exact decodePacket_wf c op d1 d2
  | command code arg p => exact decodeCommand_wf c code arg p

theorem encode_decodePacket (c : Config) (op d1 d2 : Byte) :
    encode c (decodePacket c op d1 d2) = .inbound (.packet op d1 d2) := by
  unfold decodePacket
  split_ifs <;> simp_all [encode]

/-- The command codes (R70). -/
theorem commandCode_cases (code : BitVec 2) : code = 0b00 ∨ code = 0b01 ∨ code = 0b10 ∨ code = 0b11 := by
  decide +revert

theorem encode_decodeCommand (c : Config) (code : BitVec 2) (arg : Word) (p : Bool) :
    encode c (decodeCommand code arg p) = .inbound (.command code arg p) := by
  obtain rfl | rfl | rfl | rfl := commandCode_cases code
  all_goals rfl

theorem encode_decodeTransaction (c : Config) (u : Transaction) : encode c (decodeTransaction c u) = .inbound u := by
  cases u with
  | packet op d1 d2 => exact encode_decodePacket c op d1 d2
  | command code arg p => exact encode_decodeCommand c code arg p

/-- Everything the reader of outbound units accepts: INIT_SEQ, and a frame with legal segment bytes (R63 to R66). -/
theorem decodeOutbound_cases {c : Config} {bytes : List Byte} {i : Instr} (h : decodeOutbound c bytes = .ok i) :
    (i = .outInitSeq ∧ bytes = initSeq c) ∨
      ∃ s0 s1 s2 s3, i = .outLedFrame s0 s1 s2 s3 ∧ bytes = [c.opLedSet, digitSelectMask, s0, s1, s2, s3] ∧
        (Instr.outLedFrame s0 s1 s2 s3).wf c = true := by
  unfold decodeOutbound at h
  split at h
  · split_ifs at h with hb
    exact .inl ⟨(Except.ok.inj h).symm, hb⟩
  · split_ifs at h with hb hw
    obtain ⟨rfl, rfl⟩ := hb
    exact .inr ⟨_, _, _, _, (Except.ok.inj h).symm, rfl, hw⟩
  · cases h

theorem decode_sound {c : Config} {u : WireUnit} {i : Instr} (h : decode c u = .ok i) :
    i.wf c = true ∧ encode c i = u := by
  cases u with
  | inbound t =>
    obtain rfl : decodeTransaction c t = i := Except.ok.inj h
    exact ⟨decodeTransaction_wf c t, encode_decodeTransaction c t⟩
  | outbound bytes =>
    obtain ⟨rfl, rfl⟩ | ⟨s0, s1, s2, s3, rfl, rfl, hw⟩ := decodeOutbound_cases h
    · exact ⟨rfl, rfl⟩
    · exact ⟨hw, rfl⟩

/-- Settles O4: the second clause holds because a unit decodes to at most one instruction. -/
theorem decodedUnitEncodesBack : Obligations.DecodedUnitEncodesBack := by
  refine ⟨fun c u i => decode_sound, fun c i j hl hi hj h => ?_⟩
  have hdecode := encodedInstructionDecodesBack c i hl hi
  rw [h, encodedInstructionDecodesBack c j hl hj] at hdecode
  exact (Except.ok.inj hdecode).symm

/-! ### The packet map -/

theorem packetOfBytes_eq_ok (bytes : List Byte) (t : Transaction) :
    packetOfBytes bytes = .ok t ↔ ∃ op d1 d2, bytes = [op, d1, d2] ∧ t = .packet op d1 d2 := by
  constructor
  · intro h
    unfold packetOfBytes at h
    split at h
    · exact ⟨_, _, _, rfl, (Except.ok.inj h).symm⟩
    · cases h
  · rintro ⟨op, d1, d2, rfl, rfl⟩
    rfl

/-- Settles O5: the rows exclude each other because the three opcodes are distinct. -/
theorem packetOpcodeMapIsTotal : Obligations.PacketOpcodeMapIsTotal := by
  refine ⟨packetOfBytes_eq_ok, fun c hl op d1 d2 => ?_⟩
  obtain ⟨hbr, hba, hra⟩ := c.legal_iff.1 hl
  refine ⟨?_, ?_, ?_, fun hb hr ha => decodePacket_other hb hr ha d1 d2⟩
  · rintro rfl
    exact ⟨hbr, hba, decodePacket_opButtonEvent c d1 d2⟩
  · rintro rfl
    exact ⟨hbr.symm, hra, decodePacket_reset hl d1 d2⟩
  · rintro rfl
    exact ⟨hba.symm, hra.symm, decodePacket_ack hl d1 d2⟩

/-- Settles O2: closed words for each value of the parameter, evaluated. -/
theorem writtenOutWordsDecode : Obligations.WrittenOutWordsDecode := by
  refine ⟨fun f => ⟨?_, rfl, rfl, rfl, rfl, rfl⟩, by decide, by decide, by decide, by decide⟩
  cases f <;> rfl

namespace Machine

/-- Settles O1: `step_present_eq_exec` at the first of the inputs, and the other two cases of `step_cases`. -/
theorem stepRunsTheDecodedTransaction : Obligations.StepRunsTheDecodedTransaction := by
  intro s
  refine ⟨s.config.legal_iff, fun hl t rest hi => ?_, fun hl hi => ?_, fun hl => ?_⟩
  · have hs : s = present t { s with inputs := rest } := by rw [present, ← hi]
    have h := step_present_eq_exec (s := { s with inputs := rest }) hl t
    rwa [← hs] at h
  · obtain ⟨h, -⟩ | ⟨-, -, h⟩ | ⟨-, t, rest, h, -⟩ := step_cases s
    · simp [hl] at h
    · exact h
    · simp [hi] at h
  · obtain ⟨-, h⟩ | ⟨h, -⟩ | ⟨h, -⟩ := step_cases s
    · exact h
    · simp [hl] at h
    · simp [hl] at h

end Machine

end Sys2Proof
end

section
/-! PROOFS. The spec's inferences about the combinational functions: REMAP is a bijection of the low nibbles onto the
words below 0x100 (41_button_remapper.md R121), and a segment byte keeps to its own lane (42_led_encoder.md R132, R134;
30_encoding.md R65). -/

namespace Sys2Proof.Machine

/-! ### REMAP -/

theorem lowNibble_eq_iff (b b' : Byte) :
    b.extractLsb' 0 4 = b'.extractLsb' 0 4 ↔ ∀ i, i < 4 → b.getLsbD i = b'.getLsbD i := by
  constructor
  · intro h i hi
    simpa [hi] using congrArg (·.getLsbD i) h
  · intro h
    apply BitVec.eq_of_getLsbD_eq
    intro i hi
    simpa [hi] using h i hi

/-- Equal words have equal low nibbles, since each bit of a nibble stands somewhere in the word; and the word is made of
no other bits. -/
theorem remap_eq_iff (b0 b1 b0' b1' : Byte) :
    remap b0 b1 = remap b0' b1' ↔
      b0.extractLsb' 0 4 = b0'.extractLsb' 0 4 ∧ b1.extractLsb' 0 4 = b1'.extractLsb' 0 4 := by
  rw [lowNibble_eq_iff, lowNibble_eq_iff]
  constructor
  · intro h
    have hbit (i : Nat) : (remap b0 b1).getLsbD i = (remap b0' b1').getLsbD i := by rw [h]
    simp only [getLsbD_remap] at hbit
    refine ⟨fun i hi => by simpa [hi] using hbit i, fun i hi => ?_⟩
    interval_cases i
    · exact hbit 4
    · exact hbit 6
    · exact hbit 5
    · exact hbit 7
  · rintro ⟨h0, h1⟩
    apply BitVec.eq_of_getLsbD_eq
    intro i hi
    rw [getLsbD_remap, getLsbD_remap, h1 0 (by omega), h1 1 (by omega), h1 2 (by omega), h1 3 (by omega)]
    by_cases h4 : i < 4
    · rw [h0 i h4]
    · rw [if_neg h4, if_neg h4]

theorem toNat_remap_lt (b0 b1 : Byte) : (remap b0 b1).toNat < 0x100 := by
  rw [remap_eq_or_shifts, BitVec.toNat_setWidth_of_le (by decide)]
  exact BitVec.isLt _

theorem getLsbD_eq_false_of_toNat_lt {w : Word} (hw : w.toNat < 0x100) {i : Nat} (hi : 8 ≤ i) :
    w.getLsbD i = false := by
  apply Nat.testBit_lt_two_pow
  calc w.toNat < 2 ^ 8 := hw
    _ ≤ 2 ^ i := Nat.pow_le_pow_right (by decide) hi

/-- The inverse of R121: byte 0 has the low four bits, and byte 1 the other four at the places R120 takes them from. -/
theorem remap_eq_of_bits {w : Word} {b0 b1 : Byte} (hw : w.toNat < 0x100)
    (h0 : ∀ i, i < 4 → b0.getLsbD i = w.getLsbD i) (h10 : b1.getLsbD 0 = w.getLsbD 4)
    (h11 : b1.getLsbD 1 = w.getLsbD 6) (h12 : b1.getLsbD 2 = w.getLsbD 5) (h13 : b1.getLsbD 3 = w.getLsbD 7) :
    remap b0 b1 = w := by
  apply BitVec.eq_of_getLsbD_eq
  intro i hi
  by_cases h8 : 8 ≤ i
  · rw [getLsbD_remap_of_le b0 b1 h8, getLsbD_eq_false_of_toNat_lt hw h8]
  · rw [getLsbD_remap, h10, h11, h12, h13]
    by_cases h4 : i < 4
    · rw [if_pos h4, h0 i h4]
    · obtain rfl | rfl | rfl | rfl : i = 4 ∨ i = 5 ∨ i = 6 ∨ i = 7 := by omega
      all_goals rfl

/-- Settles O15: injective on the low nibbles, bounded, and onto by the inverse. -/
theorem remapIsABijectionOnLowNibbles : Obligations.RemapIsABijectionOnLowNibbles :=
  ⟨remap_eq_iff, toNat_remap_lt, fun _ _ _ => remap_eq_of_bits⟩

/-! ### Segment bytes -/

/-- Bit 4 is clear in all sixteen entries, so adding 16 sets it and carries nowhere. -/
theorem segLut_add_sixteen (digit : BitVec 4) :
    (segLut digit).getLsbD 4 = false ∧ (segLut digit).toNat + 16 < 256 ∧
      segLut digit + 16 = segLut digit ||| 0x10 := by
  decide +revert

theorem segmentByte_eq_zero_iff (digit : BitVec 4) (enable decimal : Bool) :
    segmentByte digit enable decimal = 0x00 ↔ enable = false := by
  decide +revert

theorem getLsbD_segmentByte_four (digit : BitVec 4) (enable decimal : Bool) :
    (segmentByte digit enable decimal).getLsbD 4 = (enable && decimal) := by
  decide +revert

theorem isSegmentByte_segmentByte (digit : BitVec 4) (enable decimal : Bool) :
    isSegmentByte (segmentByte digit enable decimal) = true := by
  decide +revert

theorem isSegmentByte_segmentAt (req : Word) (i : Fin 4) : isSegmentByte (segmentAt req i) = true :=
  isSegmentByte_segmentByte _ _ _

theorem segmentAt_congr {req req' : Word} {i : Fin 4} (hdigit : digitAt req i = digitAt req' i)
    (henable : enableAt req i = enableAt req' i) (hdecimal : decimalAt req i = decimalAt req' i) :
    segmentAt req i = segmentAt req' i := by
  rw [segmentAt, hdigit, henable, hdecimal, segmentAt]

/-- Settles O17: a segment byte is `segmentByte` of its own three fields, whose sixty-four values are checked. -/
theorem segmentLanesAreIndependent : Obligations.SegmentLanesAreIndependent :=
  ⟨segLut_add_sixteen,
    fun _ _ => ⟨segmentByte_eq_zero_iff _ _ _, getLsbD_segmentByte_four _ _ _, isSegmentByte_segmentAt _ _⟩,
    fun _ _ _ => segmentAt_congr⟩

end Sys2Proof.Machine
end

section
/-! PROOFS. What each transaction does: the packets that store buttons or replay the last frame (40_packet_decoder.md
R101 to R103), the host commands (44_command_facade.md), and the table of the effects of all of them (20_memory.md
R47). -/

namespace Sys2Proof.Machine

/-! ### ButtonEvent and Reset packets -/

theorem transactionState_buttonEvent {s : State} (hf : s.config.eventFallthrough = false) (d1 d2 : Byte) :
    transactionState (.packet s.config.opButtonEvent d1 d2) s = storeButtons d1 d2 s := by
  rw [transactionState_packet, decodePacket_buttonEvent _ _ _ hf, execState_buttonEvent]

theorem transactionState_buttonEventFallthrough {s : State} (hf : s.config.eventFallthrough = true) (d1 d2 : Byte) :
    transactionState (.packet s.config.opButtonEvent d1 d2) s = resetAction (storeButtons d1 d2 s) := by
  rw [transactionState_packet, decodePacket_buttonEventFallthrough _ _ _ hf, execState_buttonEventFallthrough]

theorem transactionState_reset {s : State} (hl : s.config.legal = true) (d1 d2 : Byte) :
    transactionState (.packet s.config.opReset d1 d2) s = resetAction s := by
  rw [transactionState_packet, decodePacket_reset hl, execState_reset]

/-- Settles O6: both answers are `storeButtons`. -/
theorem buttonEventStoresTheDataBytes : Obligations.ButtonEventStoresTheDataBytes := by
  intro s d1 d2
  refine ⟨exec_eq_next (.buttonEvent d1 d2) s, fun hl hf => ?_⟩
  rw [step_present hl, transactionState_buttonEvent hf, storeButtons]

/-- Settles O7: both answers are the Reset action on the state with the buttons stored. -/
theorem buttonEventFallthroughAlsoResets : Obligations.ButtonEventFallthroughAlsoResets := by
  intro s t d1 d2 ht
  have hreset : resetAction (storeButtons d1 d2 s) = t := by
    rw [resetAction_eq, ht]
    rfl
  refine ⟨?_, fun hl hf => ?_⟩
  · rw [exec_eq_next, execState_buttonEventFallthrough, hreset]
  · rw [step_present hl, transactionState_buttonEventFallthrough hf, hreset]

/-- Settles O8: both answers are the Reset action, and the reset frame is six zero bytes. -/
theorem resetPacketReplaysTheLastFrame : Obligations.ResetPacketReplaysTheLastFrame := by
  refine ⟨fun s t d1 d2 ht => ?_, fun c d1 d2 hl => ?_⟩
  · have hreset : resetAction s = t := by
      rw [resetAction_eq, ht]
      rfl
    refine ⟨?_, fun hl => ?_⟩
    · rw [exec_eq_next, execState_reset, hreset]
    · rw [step_present hl, transactionState_reset hl, hreset]
  · have h := transactionState_reset (s := State.resetWith c) hl d1 d2
    rw [resetAction_eq] at h
    exact (step_present hl _).trans (congrArg _ h)

/-! ### Host commands -/

/-- Settles O19: the step of the command is `exec`, and that is the transmission, the cleared flag and the answer. -/
theorem initTransmitsAndClears : Obligations.InitTransmitsAndClears := by
  rintro s t arg p rfl
  have hexec : exec (.init arg p) s =
      .next (respond ⟨.success, none⟩ (clearPending (transmit (initSeq s.config) s))) :=
    exec_eq_next (.init arg p) s
  exact ⟨hexec, fun hl => (step_present_eq_exec hl _).trans hexec⟩

/-- Settles O20: the two values of the slot bit are the two branches of R161. -/
theorem getButtonsAnswersTheRemappedSnapshot : Obligations.GetButtonsAnswersTheRemappedSnapshot :=
  fun s arg => ⟨exec_eq_next (.getButtons arg true) s, exec_eq_next (.getButtons arg false) s,
    fun hl _ => step_present_eq_exec hl _⟩

/-- Settles O22: the reserved code only answers. -/
theorem reservedCommandHasNoEffect : Obligations.ReservedCommandHasNoEffect := by
  intro s arg p
  have hexec : exec (.reserved arg p) s = .next (respond ⟨.invalidArgument, none⟩ s) :=
    exec_eq_next (.reserved arg p) s
  exact ⟨hexec, fun hl => (step_present_eq_exec hl _).trans hexec⟩

/-- The row OUT_LED_FRAME with the segment bytes of a request emits the frame of that request. -/
theorem exec_outLedFrame_segments (req : Word) (s : State) :
    exec (.outLedFrame (segmentAt req 0) (segmentAt req 1) (segmentAt req 2) (segmentAt req 3)) s =
      .next (transmit (frameBytes (ledEncode s.config req)) s) := rfl

theorem outLedFrame_segments_wf (c : Config) (req : Word) :
    (Instr.outLedFrame (segmentAt req 0) (segmentAt req 1) (segmentAt req 2) (segmentAt req 3)).wf c = true := by
  simp [Instr.wf, isSegmentByte_segmentAt]

/-- Settles O23: INIT and an accepted SET_LED are the rows' transmissions and then their own writes. -/
theorem outputRowsAreTheEmittedUnits : Obligations.OutputRowsAreTheEmittedUnits := by
  have hinit (s : State) : exec .outInitSeq s = .next (transmit (initSeq s.config) s) := exec_eq_next .outInitSeq s
  refine ⟨hinit, fun s s0 s1 s2 s3 => exec_eq_next (.outLedFrame s0 s1 s2 s3) s, fun s t arg p ht => ?_,
    fun s arg p h0 => ?_⟩
  · obtain rfl : transmit (initSeq s.config) s = t := Host.Outcome.next.inj ((hinit s).symm.trans ht)
    exact exec_eq_next (.init arg p) s
  · refine ⟨_, _, _, _, _, _, outLedFrame_segments_wf s.config arg, exec_outLedFrame_segments arg s,
      exec_outLedFrame_segments arg _, ?_⟩
    rw [exec_setLed_free h0]
    simp [transmit, respond]

theorem transactionState_setLed_pending {s : State} (hp : s.commandPending = true) (req : Word) (p : Bool) :
    transactionState (.command 0b10 req p) s = respond ⟨.busy, none⟩ s :=
  execState_setLed_pending req p hp

theorem transactionState_setLed_free {s : State} (h0 : s.commandPending = false) (req : Word) (p : Bool) :
    transactionState (.command 0b10 req p) s = respond ⟨.success, none⟩
      { s with
        commandPending := true
        lastLedFrame := ledEncode s.config req
        outLog := s.outLog ++ [frameBytes (ledEncode s.config req), frameBytes (ledEncode s.config req)] } :=
  execState_setLed_free req p h0

/-- The response of a host command (R201): from its code, its slot bit, the flag and the stored buttons. -/
def commandResponse (code : BitVec 2) (p : Bool) (s : State) : Response :=
  if code = 0b00 then ⟨.success, none⟩
  else if code = 0b01 then
    if p then ⟨.success, some (remap s.lastButtons.b0 s.lastButtons.b1)⟩ else ⟨.invalidArgument, none⟩
  else if code = 0b10 then ⟨if s.commandPending then .busy else .success, none⟩
  else ⟨.invalidArgument, none⟩

theorem transactionState_command_responses (code : BitVec 2) (arg : Word) (p : Bool) (s : State) :
    (transactionState (.command code arg p) s).responses = s.responses ++ [commandResponse code p s] := by
  obtain rfl | rfl | rfl | rfl := commandCode_cases code
  · rfl
  · cases p <;> rfl
  · cases hp : s.commandPending with
    | true => rw [transactionState_setLed_pending hp, respond_responses, commandResponse, hp]; rfl
    | false => rw [transactionState_setLed_free hp, respond_responses, commandResponse, hp]; rfl
  · rfl

/-- Settles O25: the four codes, the two slot bits and the two values of the flag. -/
theorem statusOfEveryCommand : Obligations.StatusOfEveryCommand := by
  intro s t code arg p h
  obtain ⟨-, rfl⟩ := step_present_next h
  refine ⟨_, transactionState_command_responses code arg p s, ?_⟩
  unfold commandResponse
  obtain rfl | rfl | rfl | rfl := commandCode_cases code
  · simp [statusCode, resultValid]
  · cases p <;> simp [statusCode, resultValid]
  · cases s.commandPending <;> simp [statusCode, resultValid]
  · simp [statusCode, resultValid]

/-- Settles O42: the register values are the reset's own, and from it the buttons are 0 and the flag is clear. -/
theorem blockResetZeroesTheState : Obligations.BlockResetZeroesTheState := by
  refine fun c => ⟨rfl, rfl, rfl, rfl, rfl, fun hl arg => ⟨?_, ?_⟩⟩
  · have hzero : remap resetButtons.b0 resetButtons.b1 = 0x00000000 := by decide
    rw [← hzero]
    exact ⟨_, step_present_getButtons hl (resetWith_lastButtons c) arg, rfl⟩
  · exact step_present_setLed_free hl (resetWith_commandPending c) arg false

/-! ### The table of effects -/

theorem transactionState_storesButtons {s : State} {op : Byte} (hop : op = s.config.opButtonEvent) (d1 d2 : Byte) :
    (transactionState (.packet op d1 d2) s).lastButtons = ⟨d1, d2⟩ := by
  subst hop
  cases hf : s.config.eventFallthrough with
  | false => rw [transactionState_buttonEvent hf, storeButtons_lastButtons]
  | true => rw [transactionState_buttonEventFallthrough hf, resetAction_lastButtons, storeButtons_lastButtons]

/-- Only an accepted SET_LED writes the frame register. -/
theorem execState_lastLedFrame {i : Instr} {s : State} (h : i.isSetLed = false ∨ s.commandPending = true) :
    (execState i s).lastLedFrame = s.lastLedFrame := by
  cases i with
  | getButtons arg slot => cases slot <;> rfl
  | setLed arg slot =>
    obtain h | h := h
    · cases h
    · rw [execState_setLed_pending arg slot h, respond_lastLedFrame]
  | _ => rfl

theorem transactionState_lastLedFrame {s : State} {u : Transaction}
    (h : isSetLed u = false ∨ s.commandPending = true) :
    (transactionState u s).lastLedFrame = s.lastLedFrame :=
  execState_lastLedFrame (by rwa [decodeTransaction_isSetLed])

/-- The events a transaction transmits (R47). -/
def transmitted (s : State) : Transaction → List (List Byte)
  | .packet op _ _ =>
    if op = s.config.opReset ∨ (op = s.config.opButtonEvent ∧ s.config.eventFallthrough = true) then replay s
    else []
  | .command code arg _ =>
    if code = 0b00 then [initSeq s.config]
    else if code = 0b10 ∧ s.commandPending = false then
      [frameBytes (ledEncode s.config arg), frameBytes (ledEncode s.config arg)]
    else []

theorem isReplaying_packet_iff (c : Config) (op d1 d2 : Byte) :
    isReplaying c (.packet op d1 d2) = true ↔
      op = c.opReset ∨ (op = c.opButtonEvent ∧ c.eventFallthrough = true) := by
  simp [isReplaying]

theorem transactionState_packet_outLog {s : State} (hl : s.config.legal = true) (op d1 d2 : Byte) :
    (transactionState (.packet op d1 d2) s).outLog = s.outLog ++ transmitted s (.packet op d1 d2) := by
  rw [transmitted]
  split_ifs with h
  · obtain ⟨b, hb⟩ := transactionState_replaying hl ((isReplaying_packet_iff s.config op d1 d2).2 h)
    rw [hb, resetAction_outLog, replay]
  · rw [not_or, not_and] at h
    obtain ⟨hr, hf⟩ := h
    rw [List.append_nil]
    by_cases hb : op = s.config.opButtonEvent
    · subst hb
      rw [transactionState_buttonEvent (Bool.eq_false_iff.2 (hf rfl)), storeButtons_outLog]
    by_cases ha : op = s.config.opAck
    · rw [ha, transactionState_ack hl, clearPending_outLog]
    · rw [transactionState_other hb hr ha]

theorem transactionState_command_outLog (code : BitVec 2) (arg : Word) (p : Bool) (s : State) :
    (transactionState (.command code arg p) s).outLog = s.outLog ++ transmitted s (.command code arg p) := by
  obtain rfl | rfl | rfl | rfl := commandCode_cases code
  · rfl
  · cases p <;> exact (List.append_nil _).symm
  · cases hp : s.commandPending with
    | true =>
      rw [transactionState_setLed_pending hp, respond_outLog]
      simp [transmitted, hp]
    | false =>
      rw [transactionState_setLed_free hp, respond_outLog]
      simp [transmitted, hp]
  · exact (List.append_nil _).symm

theorem transactionState_outLog {s : State} (hl : s.config.legal = true) (u : Transaction) :
    (transactionState u s).outLog = s.outLog ++ transmitted s u := by
  cases u with
  | packet op d1 d2 => exact transactionState_packet_outLog hl op d1 d2
  | command code arg p => exact transactionState_command_outLog code arg p s

/-- Settles O35: a lemma for each register, and `transmitted` is the table's list of events. -/
theorem transactionEffectsTable : Obligations.TransactionEffectsTable := by
  intro s t u h
  obtain ⟨hl, rfl⟩ := step_present_next h
  refine ⟨transactionState_lastButtons, ?_, transactionState_lastLedFrame, ?_,
    transactionState_commandPending hl u, ?_⟩
  · rintro op d1 d2 rfl hop
    exact transactionState_storesButtons hop d1 d2
  · rintro code arg p rfl rfl h0
    rw [transactionState_setLed_free h0, respond_lastLedFrame]
  · rw [transactionState_outLog hl]
    cases u <;> rfl

end Sys2Proof.Machine
end

section
/-! PROOFS. Runs of transactions (70_reset_and_hazards.md): what they keep, what they answer, and the litmus runs of
R206, R247 and R151. -/

namespace Sys2Proof.Machine

/-! ### Runs -/

/-- Settles O36: a step idles or runs one instruction, and no instruction writes either. -/
theorem configurationIsConstant : Obligations.ConfigurationIsConstant := by
  refine ⟨fun s t h => ?_, fun i s t h => ?_⟩
  · obtain ⟨-, ⟨hi, rfl⟩ | ⟨u, rest, hi, rfl⟩⟩ := step_next_cases h
    · exact ⟨rfl, by rw [hi, List.tail_nil]⟩
    · exact ⟨transactionState_config u _, by rw [transactionState_inputs, presentAll_inputs, hi, List.tail_cons]⟩
  · rw [← execState_of_exec h]
    exact ⟨execState_config i s, execState_inputs i s⟩

/-- A run presents its own transactions, so those that were waiting do not matter. -/
theorem runAll_presentAll (ts us : List Transaction) (s : State) : runAll ts (presentAll us s) = runAll ts s := rfl

theorem runAll_nil (s : State) : runAll [] s = .next (presentAll [] s) := rfl

theorem runAll_cons {s : State} (hl : s.config.legal = true) (u : Transaction) (ts : List Transaction) :
    runAll (u :: ts) s = runAll ts (transactionState u s) := by
  rw [runAll_eq hl, runAll_eq (by rwa [transactionState_config]), afterAll]

theorem runAll_append {s : State} (hl : s.config.legal = true) (ts us : List Transaction) :
    runAll (ts ++ us) s = runAll us (afterAll ts s) := by
  rw [runAll_eq hl, runAll_eq (by rwa [afterAll_config]), afterAll_append]

/-- Settles O37: a legal run ends in `afterAll`, and an illegal one is refused at the first transaction, which is the
first of `us` if `ts` has none. -/
theorem runsComposeInSerialOrder : Obligations.RunsComposeInSerialOrder := by
  intro s ts us
  cases hl : s.config.legal with
  | true =>
    rw [runAll_append hl, runAll_eq hl ts]
    exact (runAll_presentAll us [] _).symm
  | false =>
    cases ts with
    | nil => rfl
    | cons u ts => rw [List.cons_append, runAll_illegal hl, runAll_illegal hl]

/-- Where a run answers a next state, it and every run of the same transactions in that configuration end in
`afterAll`. -/
theorem runAll_of_next {s t : State} {ts : List Transaction} (h : runAll ts s = .next t) {s' : State}
    (hc : s'.config = s.config) : runAll ts s' = .next (presentAll [] (afterAll ts s')) := by
  cases hl : s.config.legal with
  | true => exact runAll_eq (by rwa [hc]) ts
  | false =>
    cases ts with
    | nil => rfl
    | cons u ts =>
      rw [runAll_illegal hl] at h
      cases h

theorem eq_of_runAll_next {s t : State} {ts : List Transaction} (h : runAll ts s = .next t) :
    t = presentAll [] (afterAll ts s) :=
  Host.Outcome.next.inj (h.symm.trans (runAll_of_next h rfl))

/-! ### Responses -/

theorem commandResponse_result {code : BitVec 2} {p : Bool} {s : State} {w : Word}
    (h : (commandResponse code p s).result = some w) :
    (commandResponse code p s).status = .success ∧ w = remap s.lastButtons.b0 s.lastButtons.b1 := by
  unfold commandResponse at h ⊢
  split_ifs at h ⊢ with _ _ hp
  all_goals cases h
  exact ⟨rfl, rfl⟩

/-- A response with a result has SUCCESS and a word below 0x100 (R69, R71). -/
def ResultOk (r : Response) : Prop := ∀ w, r.result = some w → r.status = .success ∧ w.toNat < 0x100

theorem commandResponse_resultOk (code : BitVec 2) (p : Bool) (s : State) : ResultOk (commandResponse code p s) := by
  intro w h
  obtain ⟨hstatus, rfl⟩ := commandResponse_result h
  exact ⟨hstatus, toNat_remap_lt _ _⟩

theorem transactionState_packet_responses (op d1 d2 : Byte) (s : State) :
    (transactionState (.packet op d1 d2) s).responses = s.responses := by
  obtain ⟨_, _, _, _, h⟩ := transactionState_packet_effect op d1 d2 s
  rw [h]

/-- A run adds one response for each host command and none for a packet. -/
theorem afterAll_responses (ts : List Transaction) (s : State) :
    ∃ rs, (afterAll ts s).responses = s.responses ++ rs ∧ rs.length = (ts.filter isCommand).length ∧
      ∀ r ∈ rs, ResultOk r := by
  induction ts generalizing s with
  | nil => exact ⟨[], (List.append_nil _).symm, rfl, by simp⟩
  | cons u ts ih =>
    obtain ⟨rs, hrs, hlen, hok⟩ := ih (transactionState u s)
    cases u with
    | packet op d1 d2 =>
      rw [transactionState_packet_responses] at hrs
      exact ⟨rs, hrs, hlen, hok⟩
    | command code arg p =>
      rw [transactionState_command_responses, List.append_assoc] at hrs
      exact ⟨_, hrs, congrArg (· + 1) hlen, List.forall_mem_cons.2 ⟨commandResponse_resultOk code p s, hok⟩⟩

/-- Settles O26, by induction on the transactions. -/
theorem oneResponseForEachCommand : Obligations.OneResponseForEachCommand := by
  intro s ts hl
  obtain ⟨rs, hrs, hlen, hok⟩ := afterAll_responses ts s
  exact ⟨_, rs, runAll_eq hl ts, rfl, hrs, hlen, hok⟩

/-! ### The pending flag -/

theorem afterAll_concat (ts : List Transaction) (u : Transaction) (s : State) :
    afterAll (ts ++ [u]) s = transactionState u (afterAll ts s) :=
  afterAll_append ts [u] s

/-- `ts` holds a SET_LED that completes with SUCCESS in the run from `s`, and no clearing transaction after it. -/
def AcceptedAndNotCleared (s : State) (ts : List Transaction) : Prop :=
  ∃ pre u post m, ts = pre ++ u :: post ∧ isSetLed u = true ∧ (∀ v ∈ post, isClearing s.config v = false) ∧
    runAll (pre ++ [u]) s = .next m ∧ m.responses.getLast? = some ⟨.success, none⟩

theorem AcceptedAndNotCleared.concat {s : State} {ts : List Transaction} (h : AcceptedAndNotCleared s ts)
    {v : Transaction} (hv : isClearing s.config v = false) : AcceptedAndNotCleared s (ts ++ [v]) := by
  obtain ⟨pre, u, post, m, rfl, hu, hpost, hm⟩ := h
  exact ⟨pre, u, post ++ [v], m, by simp, hu, List.forall_mem_append.2 ⟨hpost, by simpa using hv⟩, hm⟩

/-- A SET_LED that finds the flag clear is accepted. -/
theorem acceptedAndNotCleared_setLed {s : State} (hl : s.config.legal = true) {ts : List Transaction} {u : Transaction}
    (hu : isSetLed u = true) (h0 : (afterAll ts s).commandPending = false) : AcceptedAndNotCleared s (ts ++ [u]) := by
  refine ⟨ts, u, [], _, rfl, hu, List.forall_mem_nil _, runAll_eq hl _, ?_⟩
  rw [presentAll_responses, afterAll_concat, transactionState_setLed_free_responses hu h0, List.getLast?_concat]

theorem eq_command_of_isSetLed {u : Transaction} (hu : isSetLed u = true) : ∃ arg p, u = .command 0b10 arg p := by
  cases u with
  | packet op d1 d2 => cases hu
  | command code arg p => exact ⟨arg, p, by rw [eq_of_beq hu]⟩

/-- The SET_LED leaves the flag set, and it stays set until it is cleared. -/
theorem AcceptedAndNotCleared.commandPending {s : State} (hl : s.config.legal = true) {ts : List Transaction}
    (h : AcceptedAndNotCleared s ts) : (afterAll ts s).commandPending = true := by
  obtain ⟨pre, u, post, -, rfl, hu, hpost, -⟩ := h
  obtain ⟨arg, p, rfl⟩ := eq_command_of_isSetLed hu
  have hset : (afterAll (pre ++ [.command 0b10 arg p]) s).commandPending = true := by
    rw [afterAll_concat, transactionState_setLed_commandPending (by rwa [afterAll_config])]
  rw [List.append_cons, afterAll_append]
  exact afterAll_commandPending_of_not_clearing (by rwa [afterAll_config]) hset (by rwa [afterAll_config])

/-- Where the flag is set at the end of a run, its last transaction did not clear it: the flag was set before, or the
last transaction is a SET_LED that found it clear. -/
theorem acceptedAndNotCleared_or_of_commandPending {s : State} (hl : s.config.legal = true) {ts : List Transaction}
    (h : (afterAll ts s).commandPending = true) :
    AcceptedAndNotCleared s ts ∨ (s.commandPending = true ∧ ∀ v ∈ ts, isClearing s.config v = false) := by
  induction ts using List.reverseRecOn with
  | nil => exact .inr ⟨h, List.forall_mem_nil _⟩
  | append_singleton ts u ih =>
    rw [afterAll_concat, transactionState_commandPending (by rwa [afterAll_config]), afterAll_config] at h
    have hu : isClearing s.config u = false ∧ (isSetLed u = true ∨ (afterAll ts s).commandPending = true) := by
      simpa using h
    obtain ⟨hclear, hu⟩ := hu
    cases hp : (afterAll ts s).commandPending with
    | true =>
      obtain haccepted | ⟨hs, hts⟩ := ih hp
      · exact .inl (haccepted.concat hclear)
      · exact .inr ⟨hs, List.forall_mem_append.2 ⟨hts, by simpa using hclear⟩⟩
    | false => exact .inl (acceptedAndNotCleared_setLed hl (by simpa [hp] using hu) hp)

/-- Settles O28: the two disjuncts set the flag at the end of the run, and nothing else does. A Reset packet is a
clearing transaction. -/
theorem pendingMeansAcceptedAndNotCleared : Obligations.PendingMeansAcceptedAndNotCleared := by
  refine ⟨fun s t ts h hl => ?_, fun s t d1 d2 hl h => ?_⟩
  · obtain rfl := eq_of_runAll_next h
    refine ⟨acceptedAndNotCleared_or_of_commandPending hl, ?_⟩
    rintro (haccepted | ⟨hs, hts⟩)
    · exact AcceptedAndNotCleared.commandPending hl haccepted
    · exact afterAll_commandPending_of_not_clearing hl hs hts
  · obtain ⟨-, rfl⟩ := step_present_next h
    rw [transactionState_reset hl, resetAction_commandPending]

/-! ### The stored buttons -/

/-- Settles O43: the ButtonEvent stores its data bytes, and the transactions after it leave them. -/
theorem getButtonsAnswersTheLastEventsDataBytes : Obligations.GetButtonsAnswersTheLastEventsDataBytes := by
  intro s pre post d1 d2 arg hl hpost
  have hb : (presentAll [] (afterAll (pre ++ .packet s.config.opButtonEvent d1 d2 :: post) s)).lastButtons =
      ⟨d1, d2⟩ := by
    rw [presentAll_lastButtons, List.append_cons, afterAll_append, afterAll_lastButtons (by rwa [afterAll_config]),
      afterAll_concat, transactionState_storesButtons (by rw [afterAll_config])]
  exact ⟨_, runAll_eq hl _, hb, step_present_getButtons (by simpa using hl) hb arg⟩

/-! ### Litmus runs -/

theorem runAll_ack {s : State} (hl : s.config.legal = true) {op : Byte} (hop : op = s.config.opAck) (d1 d2 : Byte)
    (ts : List Transaction) : runAll (.packet op d1 d2 :: ts) s = runAll ts (clearPending s) := by
  rw [runAll_cons hl, hop, transactionState_ack hl]

theorem runAll_setLed_pending {s : State} (hl : s.config.legal = true) (hp : s.commandPending = true) (req : Word)
    (p : Bool) (ts : List Transaction) :
    runAll (.command 0b10 req p :: ts) s = runAll ts (respond ⟨.busy, none⟩ s) := by
  rw [runAll_cons hl, transactionState_setLed_pending hp]

theorem runAll_setLed_free {s : State} (hl : s.config.legal = true) (h0 : s.commandPending = false) (req : Word)
    (p : Bool) (ts : List Transaction) :
    runAll (.command 0b10 req p :: ts) s = runAll ts (respond ⟨.success, none⟩
      { s with
        commandPending := true
        lastLedFrame := ledEncode s.config req
        outLog := s.outLog ++ [frameBytes (ledEncode s.config req), frameBytes (ledEncode s.config req)] }) := by
  rw [runAll_cons hl, transactionState_setLed_free h0]

/-- Settles O33: after the Ack the SET_LED is accepted, and before it the SET_LED is refused. -/
theorem bothSerializationOrdersRun : Obligations.BothSerializationOrdersRun := by
  intro s arg p d1 d2 hl hp
  constructor
  · rw [runAll_ack hl rfl, runAll_setLed_free (by exact hl) (clearPending_commandPending s), runAll_nil, ← hp]
    rfl
  · rw [runAll_setLed_pending hl hp, runAll_ack (by exact hl) (by rfl), runAll_nil]
    rfl

/-- Settles O31: each Ack clears the flag again, and the Acks are those of the one configuration. -/
theorem extraAckOpensTheGate : Obligations.ExtraAckOpensTheGate := by
  intro s a b c p d1 d2 hl h0
  rw [runAll_setLed_free hl h0, runAll_ack (by exact hl) (by rfl), runAll_setLed_free (by exact hl) (by rfl),
    runAll_ack (by exact hl) (by rfl), runAll_setLed_free (by exact hl) (by rfl), runAll_nil]
  exact ⟨_, rfl, by simp, by simp⟩

/-! ### The frame register -/

theorem afterAll_lastLedFrame {s : State} {ts : List Transaction} (hts : ∀ u ∈ ts, isSetLed u = false) :
    (afterAll ts s).lastLedFrame = s.lastLedFrame := by
  induction ts generalizing s with
  | nil => rfl
  | cons u ts ih =>
    obtain ⟨hu, hts⟩ := List.forall_mem_cons.1 hts
    exact (ih hts).trans (transactionState_lastLedFrame (.inl hu))

/-- While the flag is set only the replaying packets and INIT transmit, and they are clearing transactions. -/
theorem transmitted_eq_nil {s : State} (hp : s.commandPending = true) {u : Transaction}
    (hu : isClearing s.config u = false) : transmitted s u = [] := by
  cases u with
  | packet op d1 d2 => simp_all [isClearing, transmitted]
  | command code arg p => simp_all [isClearing, transmitted]

/-- While the flag is set, transactions that do not clear it neither write the frame register nor transmit. -/
theorem afterAll_pending_frame {s : State} {ts : List Transaction} (hl : s.config.legal = true)
    (hp : s.commandPending = true) (hts : ∀ u ∈ ts, isClearing s.config u = false) :
    (afterAll ts s).lastLedFrame = s.lastLedFrame ∧ (afterAll ts s).outLog = s.outLog := by
  induction ts generalizing s with
  | nil => exact ⟨rfl, rfl⟩
  | cons u ts ih =>
    obtain ⟨hu, hts⟩ := List.forall_mem_cons.1 hts
    have hpend : (transactionState u s).commandPending = true := by
      simp [transactionState_commandPending hl, hu, hp]
    obtain ⟨hframe, hlog⟩ := ih (by rwa [transactionState_config]) hpend (by rwa [transactionState_config])
    refine ⟨hframe.trans (transactionState_lastLedFrame (.inr hp)), hlog.trans ?_⟩
    rw [transactionState_outLog hl, transmitted_eq_nil hp hu, List.append_nil]

/-- Settles O32: the refused SET_LED and `held` find the flag set, and `freed` holds no SET_LED, so the Reset action
replays the frame of the first state. An accepted frame is sent whatever the register held. -/
theorem refusedFrameIsNeverReplayed : Obligations.RefusedFrameIsNeverReplayed := by
  refine ⟨fun s arg p held freed d1 d2 hl hp hheld hfreed => ?_, fun s arg p hl h0 hframe => ?_⟩
  · have hclearing : ∀ u ∈ .command 0b10 arg p :: held, isClearing s.config u = false :=
      List.forall_mem_cons.2 ⟨rfl, hheld⟩
    obtain ⟨hheldFrame, hheldLog⟩ := afterAll_pending_frame hl hp hclearing
    have hfreedFrame : (afterAll (.command 0b10 arg p :: (held ++ freed)) s).lastLedFrame = s.lastLedFrame := by
      rw [← List.cons_append, afterAll_append, afterAll_lastLedFrame hfreed, hheldFrame]
    have hreset : afterAll (.command 0b10 arg p :: (held ++ freed ++ [.packet s.config.opReset d1 d2])) s =
        resetAction (afterAll (.command 0b10 arg p :: (held ++ freed)) s) := by
      have h := transactionState_reset (s := afterAll (.command 0b10 arg p :: (held ++ freed)) s)
        (by simpa using hl) d1 d2
      rw [afterAll_config] at h
      rw [← List.cons_append, afterAll_concat, h]
    refine ⟨_, _, _, runAll_eq hl _, hheldLog, runAll_eq hl _, runAll_eq hl _, hheldFrame, hfreedFrame, ?_, ?_⟩
    · rw [hreset, presentAll_lastLedFrame, resetAction_lastLedFrame, hfreedFrame]
    · rw [hreset, presentAll_outLog, resetAction_outLog, hfreedFrame, afterAll_config]
      rfl
  · refine ⟨_, step_present hl _, ?_⟩
    rw [transactionState_setLed_free h0, hframe]
    exact ⟨rfl, rfl⟩

end Sys2Proof.Machine
end

section
/-! PROOFS. What no run reads: the two output logs (10_state.md R26, 60_exceptions.md R202), and the upper bits of the
stored buttons (41_button_remapper.md R121). -/

namespace Sys2Proof.Machine

/-! ### The output logs -/

/-- `s` with other output logs. -/
def withLogs (log : List (List Byte)) (old : List Response) (s : State) : State :=
  { s with outLog := log, responses := old }

theorem withLogs_self (s : State) : withLogs s.outLog s.responses s = s := rfl

/-- From `s`, `f` adds outputs to the logs and reads neither of them. -/
def AddsOutputs (f : State → State) (s : State) : Prop :=
  ∃ events rs, ∀ log old, f (withLogs log old s) = withLogs (log ++ events) (old ++ rs) (f s)

/-- The outputs of an instruction: what it transmits and its response, if it has one. -/
theorem execState_addsOutputs (i : Instr) (s : State) : AddsOutputs (execState i) s := by
  cases i with
  | buttonEvent d1 d2 | ack d1 d2 | other op d1 d2 =>
    refine ⟨[], [], fun log old => ?_⟩
    rw [List.append_nil, List.append_nil]
    rfl
  | buttonEventFallthrough d1 d2 =>
    refine ⟨replay s, [], fun log old => ?_⟩
    rw [execState_buttonEventFallthrough, execState_buttonEventFallthrough, resetAction_eq, resetAction_eq,
      List.append_nil]
    rfl
  | reset d1 d2 =>
    refine ⟨replay s, [], fun log old => ?_⟩
    rw [execState_reset, execState_reset, resetAction_eq, resetAction_eq, List.append_nil]
    rfl
  | init arg p => exact ⟨[initSeq s.config], [⟨.success, none⟩], fun log old => rfl⟩
  | getButtons arg p =>
    refine ⟨[], [commandResponse 0b01 p s], fun log old => ?_⟩
    rw [List.append_nil]
    cases p <;> rfl
  | setLed arg p =>
    cases hp : s.commandPending with
    | true =>
      refine ⟨[], [⟨.busy, none⟩], fun log old => ?_⟩
      rw [execState_setLed_pending arg p (by exact hp), execState_setLed_pending arg p hp, List.append_nil]
      rfl
    | false =>
      refine ⟨[frameBytes (ledEncode s.config arg), frameBytes (ledEncode s.config arg)], [⟨.success, none⟩],
        fun log old => ?_⟩
      rw [execState_setLed_free arg p (by exact hp), execState_setLed_free arg p hp]
      rfl
  | reserved arg p =>
    refine ⟨[], [⟨.invalidArgument, none⟩], fun log old => ?_⟩
    rw [List.append_nil]
    rfl
  | outInitSeq =>
    refine ⟨[initSeq s.config], [], fun log old => ?_⟩
    rw [List.append_nil]
    rfl
  | outLedFrame s0 s1 s2 s3 =>
    refine ⟨[frameBytes (ledFrame s.config s0 s1 s2 s3)], [], fun log old => ?_⟩
    rw [List.append_nil]
    rfl

theorem transactionState_addsOutputs (u : Transaction) (s : State) : AddsOutputs (transactionState u) s :=
  execState_addsOutputs (decodeTransaction s.config u) s

theorem afterAll_addsOutputs (ts : List Transaction) (s : State) : AddsOutputs (afterAll ts) s := by
  induction ts generalizing s with
  | nil =>
    refine ⟨[], [], fun log old => ?_⟩
    rw [List.append_nil, List.append_nil, afterAll, afterAll]
  | cons u ts ih =>
    obtain ⟨events, rs, hu⟩ := transactionState_addsOutputs u s
    obtain ⟨events', rs', hts⟩ := ih (transactionState u s)
    refine ⟨events ++ events', rs ++ rs', fun log old => ?_⟩
    rw [afterAll, afterAll, hu, hts, List.append_assoc, List.append_assoc]

/-- Settles O38: a run adds outputs and reads no log; with the state's own logs that is what it adds to them. -/
theorem outputLogsAreNeverRead : Obligations.OutputLogsAreNeverRead := by
  intro s t ts h
  obtain rfl := eq_of_runAll_next h
  obtain ⟨events, rs, hadds⟩ := afterAll_addsOutputs ts s
  have hown := hadds s.outLog s.responses
  rw [withLogs_self] at hown
  refine ⟨events, rs, congrArg State.outLog hown, congrArg State.responses hown, fun log old => ?_⟩
  have hrun := runAll_of_next h (s' := withLogs log old s) rfl
  rwa [hadds] at hrun

/-! ### The upper bits of the stored buttons -/

/-- Two snapshots that GET_BUTTONS answers alike: by `remap_eq_iff` those with the same low nibbles. -/
def SameRemap (b b' : ButtonSnapshot) : Prop := remap b.b0 b.b1 = remap b'.b0 b'.b1

/-- `s` with other stored buttons. -/
def withButtons (b : ButtonSnapshot) (s : State) : State := { s with lastButtons := b }

/-- GET_BUTTONS alone reads the stored buttons, through REMAP, and a ButtonEvent overwrites them. -/
theorem execState_withButtons {s : State} {b : ButtonSnapshot} (hb : SameRemap b s.lastButtons) (i : Instr) :
    ∃ b', execState i (withButtons b s) = withButtons b' (execState i s) ∧
      SameRemap b' (execState i s).lastButtons := by
  cases i with
  | buttonEvent d1 d2 | buttonEventFallthrough d1 d2 => exact ⟨⟨d1, d2⟩, rfl, rfl⟩
  | getButtons arg p =>
    refine ⟨b, ?_, by rwa [execState_lastButtons rfl]⟩
    cases p with
    | true =>
      rw [execState_getButtons_slot, execState_getButtons_slot, ← hb]
      rfl
    | false => rfl
  | setLed arg p =>
    refine ⟨b, ?_, by rwa [execState_lastButtons rfl]⟩
    cases hp : s.commandPending with
    | true =>
      rw [execState_setLed_pending arg p (by exact hp), execState_setLed_pending arg p hp]
      rfl
    | false =>
      rw [execState_setLed_free arg p (by exact hp), execState_setLed_free arg p hp]
      rfl
  | _ => exact ⟨b, rfl, hb⟩

theorem afterAll_withButtons {s : State} {b : ButtonSnapshot} (hb : SameRemap b s.lastButtons)
    (ts : List Transaction) : ∃ b', afterAll ts (withButtons b s) = withButtons b' (afterAll ts s) := by
  induction ts generalizing s b with
  | nil => exact ⟨b, rfl⟩
  | cons u ts ih =>
    obtain ⟨b', hu, hb'⟩ := execState_withButtons hb (decodeTransaction s.config u)
    obtain ⟨b'', hts⟩ := ih (s := transactionState u s) hb'
    exact ⟨b'', (congrArg (afterAll ts) hu).trans hts⟩

/-- Settles O39: snapshots with the same low nibbles have the same REMAP. -/
theorem upperSnapshotBitsAreUnobservable : Obligations.UpperSnapshotBitsAreUnobservable := by
  intro s t b ts h0 h1 h
  obtain rfl := eq_of_runAll_next h
  obtain ⟨b', hb'⟩ := afterAll_withButtons (s := s) (b := b) ((remap_eq_iff _ _ _ _).2 ⟨h0, h1⟩) ts
  have hrun := runAll_of_next h (s' := withButtons b s) rfl
  rw [hb'] at hrun
  exact ⟨b', hrun⟩

end Sys2Proof.Machine
end

section
/-! PROOFS. The state invariant (`State.inv`): it holds at the block reset, and every instruction that a transaction can
decode to keeps it. -/

namespace Sys2Proof.Machine

/-- The clauses of `State.inv`, by name. -/
structure Inv (s : State) : Prop where
  frame : frameOk s.config s.lastLedFrame = true
  events : ∀ e ∈ s.outLog, eventOk s.config e = true
  responses : ∀ r ∈ s.responses, responseOk r = true
  stored : s.lastLedFrame = resetFrame ∨ frameBytes s.lastLedFrame ∈ s.outLog
  pending : s.commandPending = true →
    (s.lastLedFrame.opcode = s.config.opLedSet ∧ s.lastLedFrame.mask = digitSelectMask) ∧
      frameBytes s.lastLedFrame ∈ s.outLog

theorem inv_iff (s : State) : s.inv = true ↔ Inv s := by
  simp only [State.inv, Bool.and_eq_true, Bool.or_eq_true, Bool.not_eq_true', List.all_eq_true, beq_iff_eq,
    List.contains_iff_mem, ← Bool.not_eq_true, ← imp_iff_not_or]
  exact ⟨fun ⟨⟨⟨⟨h1, h2⟩, h3⟩, h4⟩, h5⟩ => ⟨h1, h2, h3, h4, h5⟩,
    fun ⟨h1, h2, h3, h4, h5⟩ => ⟨⟨⟨⟨h1, h2⟩, h3⟩, h4⟩, h5⟩⟩

/-! ### The events and responses the block makes -/

theorem eventOk_initSeq (c : Config) : eventOk c (initSeq c) = true := by
  simp [eventOk, initSeq]

theorem eventOk_frameBytes (c : Config) (f : LedFrame) : eventOk c (frameBytes f) = frameOk c f := rfl

theorem frameOk_ledFrame {c : Config} {s0 s1 s2 s3 : Byte} (hw : (Instr.outLedFrame s0 s1 s2 s3).wf c = true) :
    frameOk c (ledFrame c s0 s1 s2 s3) = true := by
  simp only [Instr.wf, Bool.and_eq_true] at hw
  simp [frameOk, ledFrame, hw]

theorem frameOk_ledEncode (c : Config) (req : Word) : frameOk c (ledEncode c req) = true :=
  frameOk_ledFrame (outLedFrame_segments_wf c req)

theorem responseOk_none (status : Status) : responseOk ⟨status, none⟩ = true := rfl

theorem responseOk_remap (b0 b1 : Byte) : responseOk ⟨.success, some (remap b0 b1)⟩ = true := by
  simp [responseOk, toNat_remap_lt b0 b1]

/-! ### The operations that keep the invariant -/

theorem Inv.transmit {s : State} (h : Inv s) {bytes : List Byte} (hb : eventOk s.config bytes = true) :
    Inv (transmit bytes s) where
  frame := h.frame
  events := List.forall_mem_append.2 ⟨h.events, List.forall_mem_singleton.2 hb⟩
  responses := h.responses
  stored := h.stored.imp_right (List.mem_append_left _)
  pending hp := (h.pending hp).imp_right (List.mem_append_left _)

theorem Inv.respond {s : State} (h : Inv s) {r : Response} (hr : responseOk r = true) : Inv (respond r s) where
  frame := h.frame
  events := h.events
  responses := List.forall_mem_append.2 ⟨h.responses, List.forall_mem_singleton.2 hr⟩
  stored := h.stored
  pending := h.pending

theorem Inv.clearPending {s : State} (h : Inv s) : Inv (clearPending s) :=
  { h with pending := fun hp => by cases hp }

theorem Inv.storeButtons {s : State} (h : Inv s) (d1 d2 : Byte) : Inv (storeButtons d1 d2 s) := { h with }

theorem Inv.presentAll {s : State} (h : Inv s) (ts : List Transaction) : Inv (presentAll ts s) := { h with }

/-- The Reset action transmits INIT_SEQ and the stored frame, which is of its form by the invariant. -/
theorem Inv.resetAction {s : State} (h : Inv s) : Inv (resetAction s) := by
  have hframe : eventOk s.config (frameBytes s.lastLedFrame) = true := h.frame
  exact (((h.transmit (eventOk_initSeq s.config)).transmit hframe).transmit hframe).clearPending

/-- An accepted SET_LED stores and transmits a frame of the right form (R150). -/
theorem Inv.acceptedFrame {s : State} (h : Inv s) (req : Word) : Inv
    { s with
      commandPending := true
      lastLedFrame := ledEncode s.config req
      outLog := s.outLog ++ [frameBytes (ledEncode s.config req), frameBytes (ledEncode s.config req)] } where
  frame := frameOk_ledEncode s.config req
  events := List.forall_mem_append.2 ⟨h.events, by simp [eventOk_frameBytes, frameOk_ledEncode]⟩
  responses := h.responses
  stored := .inr (by simp)
  pending _ := ⟨⟨rfl, rfl⟩, by simp⟩

/-- Every well-formed instruction keeps the invariant. -/
theorem execState_inv {s : State} (h : Inv s) {i : Instr} (hw : i.wf s.config = true) : Inv (execState i s) := by
  cases i with
  | buttonEvent d1 d2 => exact h.storeButtons d1 d2
  | buttonEventFallthrough d1 d2 => exact (h.storeButtons d1 d2).resetAction
  | reset d1 d2 => exact h.resetAction
  | ack d1 d2 => exact h.clearPending
  | other op d1 d2 => exact h
  | init arg p => exact (h.transmit (eventOk_initSeq s.config)).clearPending.respond (responseOk_none _)
  | getButtons arg p =>
    cases p with
    | true => exact h.respond (responseOk_remap _ _)
    | false => exact h.respond (responseOk_none _)
  | setLed arg p =>
    cases hp : s.commandPending with
    | true =>
      rw [execState_setLed_pending arg p hp]
      exact h.respond (responseOk_none _)
    | false =>
      rw [execState_setLed_free arg p hp]
      exact (h.acceptedFrame arg).respond (responseOk_none _)
  | reserved arg p => exact h.respond (responseOk_none _)
  | outInitSeq => exact h.transmit (eventOk_initSeq s.config)
  | outLedFrame s0 s1 s2 s3 => exact h.transmit (frameOk_ledFrame hw)

/-- Settles O40: a step idles, or runs the instruction a transaction decodes to, which is well-formed. -/
theorem stepKeepsTheStateInvariant : Obligations.StepKeepsTheStateInvariant := by
  intro s t hinv h
  rw [inv_iff] at hinv ⊢
  obtain ⟨-, ⟨-, rfl⟩ | ⟨u, rest, -, rfl⟩⟩ := step_next_cases h
  · exact hinv
  · exact execState_inv (hinv.presentAll rest) (decodeTransaction_wf s.config u)

theorem resetWith_inv (c : Config) : (State.resetWith c).inv = true :=
  (inv_iff _).2
    { frame := rfl
      events := List.forall_mem_nil _
      responses := List.forall_mem_nil _
      stored := .inl rfl
      pending := fun hp => by cases hp }

/-- Settles O41: `State.reset` is the block reset of one configuration. -/
theorem resetMeetsTheStateInvariant : Obligations.ResetMeetsTheStateInvariant :=
  ⟨resetWith_inv, resetWith_inv resetConfig⟩

end Sys2Proof.Machine
end
